-- ==== Sys2Proof/Word.lean ====
section
/-! DEFINITION. The two word types of the core (00_scope.md R7: a byte is 8 bits, the host bus is 32 bits wide, R6). -/

namespace Sys2Proof

/-- A byte: an unsigned 8-bit value; "modulo 256 (native 8-bit arithmetic)" (00_scope.md R7). -/
abbrev Byte := BitVec 8

/-- A 32-bit bus datum, a command word, or a key-schedule word (00_scope.md R10). -/
abbrev Word := BitVec 32

end Sys2Proof
end

