-- ==== Sys2Proof/Syntax.lean ====
section
/-! DEFINITION. The commands (30_encoding.md R82), one constructor per row of spec/opcode_table.json, and the names
under which a command word or an access is rejected (60_exceptions.md R231). -/

namespace Sys2Proof

/-- A command with its used fields (30_encoding.md R80, R81). -/
inductive Instr where
  /-- NOP, opcode 0x0 (45_round_sequencer.md R194). -/
  | nop
  /-- SBOX a, opcode 0x1 (41_substitution.md R102). -/
  | sbox (a : Byte)
  /-- SUBBYTES, opcode 0x2 (41_substitution.md R103). -/
  | subbytes
  /-- SHIFTROWS, opcode 0x3 (42_row_shift.md R121). -/
  | shiftrows
  /-- GFMUL a, b, opcode 0x4 (43_gf_column_mix.md R145). -/
  | gfmul (a : Byte) (b : BitVec 2)
  /-- MIXCOLUMNS, opcode 0x5 (43_gf_column_mix.md R148). -/
  | mixcolumns
  /-- KEYSTEP j, opcode 0x6 (44_key_schedule.md R174); legal for j in 0..9. -/
  | keystep (j : BitVec 4)
  /-- ADDKEY, opcode 0x7 (45_round_sequencer.md R191). -/
  | addkey
  /-- ROUND j, opcode 0x8 (45_round_sequencer.md R193); legal for j in 0..9. -/
  | round (j : BitVec 4)
  /-- ENCRYPT, opcode 0x9 (45_round_sequencer.md R195). -/
  | encrypt
  deriving DecidableEq, Repr

/-- The causes of a command error (60_exceptions.md R231; their codes are `CmdErr.code`). -/
inductive CmdErr where
  /-- CTRL written while BUSY = 1. -/
  | busyCmd
  /-- STATE or KEY written while BUSY = 1. -/
  | busyData
  /-- A legal opcode with a nonzero reserved or unused field. -/
  | rsvdBits
  /-- Opcode 0xA to 0xF. -/
  | rsvdOp
  /-- KEYSTEP or ROUND with RIDX from 10 to 15. -/
  | badRidx
  deriving DecidableEq, Repr

/-- The verdict of the decoder on a command word (30_encoding.md R86). -/
inductive Verdict where
  | legal (i : Instr)
  | illegal (e : CmdErr)
  deriving DecidableEq, Repr

end Sys2Proof
end

