-- ==== Sys2Proof/WellFormed.lean ====
section
/-! DEFINITION. Which commands are legal: KEYSTEP and ROUND need RIDX ≤ 9 (30_encoding.md R85); every other field value
the types admit is legal (R81, R93). -/

namespace Sys2Proof

/-- The command is one of the admitted ones (30_encoding.md R85, R93). -/
def Instr.wf : Instr → Bool
  | .nop => true
  | .sbox _ => true
  | .subbytes => true
  | .shiftrows => true
  | .gfmul _ _ => true
  | .mixcolumns => true
  | .keystep j => decide (j.toNat ≤ 9)
  | .addkey => true
  | .round j => decide (j.toNat ≤ 9)
  | .encrypt => true

end Sys2Proof
end

