-- ==== Sys2Proof/Decode.lean ====
section
/-! DEFINITION. Decoding a command word (30_encoding.md R80 to R86), total on all 2^32 words, and the encoder (R90). -/

namespace Sys2Proof

/-- OP = v[3:0] (30_encoding.md R80). -/
def opField (v : Word) : BitVec 4 := v.extractLsb' 0 4

/-- RIDX = v[7:4] (30_encoding.md R80). -/
def ridxField (v : Word) : BitVec 4 := v.extractLsb' 4 4

/-- A = v[15:8] (30_encoding.md R80). -/
def aField (v : Word) : Byte := v.extractLsb' 8 8

/-- B = v[17:16] (30_encoding.md R80). -/
def bField (v : Word) : BitVec 2 := v.extractLsb' 16 2

/-- The bits an opcode may set (30_encoding.md R83). -/
def usedMask (op : BitVec 4) : Word :=
  0x0000000F#32
    ||| (if op = 0x1#4 then 0x0000FF00#32 else 0#32)
    ||| (if op = 0x4#4 then 0x0003FF00#32 else 0#32)
    ||| (if op = 0x6#4 ∨ op = 0x8#4 then 0x000000F0#32 else 0#32)

/-- The opcode map (30_encoding.md R82): `none` for the reserved opcodes 0xA to 0xF (R84). -/
def instrOf (op : BitVec 4) (j : BitVec 4) (a : Byte) (b : BitVec 2) : Option Instr :=
  if op = 0x0#4 then some .nop
  else if op = 0x1#4 then some (.sbox a)
  else if op = 0x2#4 then some .subbytes
  else if op = 0x3#4 then some .shiftrows
  else if op = 0x4#4 then some (.gfmul a b)
  else if op = 0x5#4 then some .mixcolumns
  else if op = 0x6#4 then some (.keystep j)
  else if op = 0x7#4 then some .addkey
  else if op = 0x8#4 then some (.round j)
  else if op = 0x9#4 then some .encrypt
  else none

/-- `Decode(v)` (30_encoding.md R86): the opcode check, then the reserved and unused bits, then the round index; the
first check that fails names the error. -/
def decodeWord (v : Word) : Verdict :=
  match instrOf (opField v) (ridxField v) (aField v) (bField v) with
  | none => .illegal .rsvdOp
  | some i =>
    if v &&& ~~~(usedMask (opField v)) ≠ 0#32 then .illegal .rsvdBits
    else if i.wf then .legal i
    else .illegal .badRidx

/-- The command word of a command (the encodings of 30_encoding.md R90; the fields do not overlap). -/
def encode : Instr → Word
  | .nop => 0x00000000#32
  | .sbox a => (a.setWidth 32 <<< 8) + 0x1#32
  | .subbytes => 0x00000002#32
  | .shiftrows => 0x00000003#32
  | .gfmul a b => (b.setWidth 32 <<< 16) + (a.setWidth 32 <<< 8) + 0x4#32
  | .mixcolumns => 0x00000005#32
  | .keystep j => (j.setWidth 32 <<< 4) + 0x6#32
  | .addkey => 0x00000007#32
  | .round j => (j.setWidth 32 <<< 4) + 0x8#32
  | .encrypt => 0x00000009#32

/-- The command word that the opcode table's numbering gives: its low `nbits` bits are those of `w`, the rest 0. -/
def tableWord (nbits w : Nat) : Word := BitVec.ofNat 32 (w % 2 ^ nbits)

/-- The instruction the decoder reads from a word numbered as spec/opcode_table.json numbers it: one 32-bit word
(30_encoding.md R89), taken whole from the bus. `none` where it is rejected. -/
def decodeTableWord (nbits w : Nat) : Option Instr :=
  match decodeWord (tableWord nbits w) with
  | .legal i => some i
  | .illegal _ => none

end Sys2Proof
end

