-- ==== Sys2Proof/Config.lean ====
section
/-! DEFINITION. What the spec leaves open: the free values (draws) and the OPEN parameters of 00_scope.md R6.
Each is a constant with no body, so nothing in Lean can know its value: a claim holds for every value. -/

namespace Sys2Proof.Config

/-- The draw `any8()` (00_scope.md R9). The counter `State.draws` numbers the draws, so each is fresh.
Free value, log entry 1. -/
opaque any8 : Nat → Byte

/-- The draw `any32()` (00_scope.md R9), numbered by `State.draws` (20_memory.md R55, 60_exceptions.md R233).
Free value, log entries 2 and 3. -/
opaque any32 : Nat → Word

/-- BASE_ADDR divided by 0x40: the platform fixes it (00_scope.md R6, OPEN). -/
opaque windowIndex : Nat

/-- `BASE_ADDR`, "a multiple of 0x40, fixed by the platform" (20_memory.md R50). -/
def baseAddr : Nat := 0x40 * windowIndex

/-- The clock cycles per core step less one (00_scope.md R6, OPEN). -/
opaque stepLatencyPred : Nat

/-- `STEP_LATENCY`, "an integer of at least 1; no rule depends on it" (00_scope.md R6, 70_reset_and_hazards.md R268). -/
def stepLatency : Nat := stepLatencyPred + 1

/-- The cycles from acceptance to BUSY = 0: "11 × `STEP_LATENCY`" (70_reset_and_hazards.md R268). The model itself is untimed. -/
def encryptCycles : Nat := 11 * stepLatency

/-- The ways a platform may report a bus error that 60_exceptions.md R233 names. -/
inductive BusErrSignal where
  | errorResponse
  | abort
  | interrupt
  | other
  deriving DecidableEq, Repr, Inhabited

/-- `BUSERR`: "how the platform signals a bus error to the host" (00_scope.md R6, OPEN). Every bus-error fault of the
model is reported to the host in this one way. -/
opaque busErr : BusErrSignal

end Sys2Proof.Config
end

