-- ==== Sys2Proof/Machine/Block.lean ====
section
/-! DEFINITION. The 16-byte buffer that STATE and KEY are, and its one, column-major, matrix view (10_state.md R20 to R22). -/

namespace Sys2Proof.Machine

/-- Sixteen bytes, byte 0 first (10_state.md R20, R22). -/
abbrev Block := Vector Byte 16

/-- The index of row `r`, column `c`: `4*c + r` in every stage (10_state.md R21). -/
def idx (r c : Fin 4) : Fin 16 := ⟨4 * c.val + r.val, by omega⟩

/-- The row of a byte index (10_state.md R21). -/
def rowOf (i : Fin 16) : Fin 4 := ⟨i.val % 4, by omega⟩

/-- The column of a byte index (10_state.md R21). -/
def colOf (i : Fin 16) : Fin 4 := ⟨i.val / 4, by omega⟩

/-- The block whose byte `i` is `f i`: the loop `for i in 0..15` over values that were there before it. -/
def blockOf (f : Fin 16 → Byte) : Block := Vector.ofFn f

/-- Sixteen draws `any8()`, the first numbered `d` (70_reset_and_hazards.md R260). -/
def drawBlock (d : Nat) : Block := blockOf fun i => Config.any8 (d + i.val)

end Sys2Proof.Machine
end

