-- ==== Sys2Proof/Machine/State.lean ====
section
/-! DEFINITION. The state of the machine: the architectural state of 10_state.md R37, and the model's own fields for the
two agents of 00_scope.md R5 (the host's accesses still to come, whose turn it is, the last answer) and for the draws. -/

namespace Sys2Proof.Machine

/-- SEQ, the 2-bit state of the round sequencer (10_state.md R26; the codes are `Seq.code`). -/
inductive Seq where
  /-- No command has completed since reset. -/
  | idle
  /-- ENCRYPT accepted; the whitening step is next. -/
  | initial
  /-- ENCRYPT in progress; round `j = RND` is next. -/
  | round
  /-- The last accepted command has completed. -/
  | done
  deriving DecidableEq, Repr

/-- One bus access, less its place: `MemRead(_, n)` or `MemWrite(_, n, v)` of `n` bytes (00_scope.md R9). The data of a
write of another width than 4 is never looked at (20_memory.md R51). -/
inductive Xfer where
  | read (n : Nat)
  | write (n : Nat) (v : Word)
  deriving DecidableEq, Repr

/-- One statement of the host (30_encoding.md R91). -/
inductive HostOp where
  /-- An access at byte offset `off` of the 0x40-byte window (20_memory.md R50). -/
  | access (off : BitVec 6) (x : Xfer)
  /-- An access at a byte address of the host's address space (20_memory.md R50). -/
  | bus (addr : Nat) (x : Xfer)
  /-- `WAIT`: read STATUS until its bit 0 is 0 (30_encoding.md R91). -/
  | wait
  deriving DecidableEq, Repr

/-- Who moves: the host, the core, or the reset input (00_scope.md R5, 70_reset_and_hazards.md R260). -/
inductive Turn where
  | host
  | core
  | reset
  deriving DecidableEq, Repr

/-- What the window answered to the host's last access. -/
inductive Answer where
  /-- No access has been answered (none yet, or the last one was outside the window). -/
  | silent
  /-- A write was taken (a rejected one too: rejections show in STATUS only). -/
  | written
  /-- The data of a read. -/
  | data (v : Word)
  deriving DecidableEq, Repr

/-- The state. The first seven fields are the architectural state, "exactly the tuple (STATE, KEY, RESULT, SEQ, RND, ERR,
ERRCODE)" (10_state.md R37); the last four are the model's own (log entries 1, 4, 5, 6). -/
@[ext]
structure State where
  /-- STATE, 16 bytes (10_state.md R20). -/
  state : Block
  /-- KEY, 16 bytes (10_state.md R22). -/
  key : Block
  /-- RESULT, 8 bits (10_state.md R25). -/
  result : Byte
  /-- SEQ, 2 bits (10_state.md R26). -/
  seq : Seq
  /-- RND, 4 bits (10_state.md R27). -/
  rnd : BitVec 4
  /-- ERR, 1 bit (10_state.md R28). -/
  err : Bool
  /-- ERRCODE, 3 bits (10_state.md R29). -/
  errCode : BitVec 3
  /-- How many free values have been drawn (model's own, log entry 1). -/
  draws : Nat
  /-- The host's statements still to be carried out, next one first (model's own, log entry 4). -/
  host : List HostOp
  /-- Whose turns come next (model's own, log entry 5). -/
  turns : List Turn
  /-- The last answer of the window (model's own, log entry 6). -/
  answer : Answer
  deriving DecidableEq, Repr

/-- Why the machine stops. -/
inductive Fault where
  /-- `raise BusError(off)`: an access that 20_memory.md R51 refuses. Raised by `accessWindow`. "A model treats a bus error
  as a fault of the host program" (60_exceptions.md R233). A read's data is the draw `readData`. Safe: no run goes on
  past it. -/
  | busError (off : BitVec 6) (x : Xfer) (readData : Option Word)
  /-- SEQ = ROUND with RND from 10 to 15: no rule gives a core step there, and no run reaches it (10_state.md R27). Raised
  by `coreStep`. Safe: the machine stops. -/
  | roundOutOfRange (rnd : BitVec 4)
  deriving DecidableEq, Repr

/-- Why the model has no answer. -/
inductive Refusal where
  /-- The instruction has no meaning in the model yet. Raised by an arm of `exec` only; no arm does so in this model. Safe. -/
  | notModelled (mnemonic : String)
  deriving DecidableEq, Repr

/-- The outcome of a step of this machine. -/
abbrev Out := Host.Outcome State Fault Refusal

/-- The machine right after reset (70_reset_and_hazards.md R260, R261, R270): the control state is 0, and STATE, KEY and
RESULT hold the draws numbered 0 to 32. Nothing is pending. -/
def State.reset : State where
  state := drawBlock 0
  key := drawBlock 16
  result := Config.any8 32
  seq := .idle
  rnd := 0#4
  err := false
  errCode := 0#3
  draws := 33
  host := []
  turns := []
  answer := .silent

end Sys2Proof.Machine
end

