-- ==== Sys2Proof/Machine/Flags.lean ====
section
/-! DEFINITION. The flags: BUSY and DONE derived from SEQ (10_state.md R31, R32), the error codes (60_exceptions.md R231),
and STATUS as the host reads it (20_memory.md R59). The core has no others (10_state.md R33). -/

namespace Sys2Proof.Machine

/-- The value of SEQ (10_state.md R26). -/
def Seq.code : Seq → BitVec 2
  | .idle => 0#2
  | .initial => 1#2
  | .round => 2#2
  | .done => 3#2

/-- `BUSY = (SEQ == INITIAL) or (SEQ == ROUND)` (10_state.md R31). -/
def Seq.busy : Seq → Bool
  | .idle => false
  | .initial => true
  | .round => true
  | .done => false

/-- BUSY (10_state.md R31). -/
def State.busy (s : State) : Bool := s.seq.busy

/-- `DONE = (SEQ == DONE)` (10_state.md R32). -/
def State.isDone (s : State) : Bool := decide (s.seq = .done)

/-- The code of a command error (60_exceptions.md R231). -/
def errCodeOf : CmdErr → BitVec 3
  | .busyCmd => 1#3
  | .busyData => 2#3
  | .rsvdBits => 3#3
  | .rsvdOp => 4#3
  | .badRidx => 5#3

/-- The sixteen low bits of STATUS: `RND || 0b00 || SEQ || 0b0 || ERRCODE || 0b0 || ERR || DONE || BUSY` (20_memory.md R59). -/
def State.statusBits (s : State) : BitVec 16 :=
  s.rnd ++ 0b00#2 ++ s.seq.code ++ 0b0#1 ++ s.errCode ++ 0b0#1
    ++ BitVec.ofBool s.err ++ BitVec.ofBool s.isDone ++ BitVec.ofBool s.busy

/-- STATUS as read: `zext_32` of those bits (20_memory.md R59). -/
def State.statusWord (s : State) : Word := s.statusBits.setWidth 32

end Sys2Proof.Machine
end

