-- ==== Sys2Proof/Machine/Operands.lean ====
section
/-! DEFINITION. Operand forms: big-endian words over block columns (10_state.md R23, 20_memory.md R53) and the round
index (30_encoding.md R81, R85). Byte order is decided here only. -/

namespace Sys2Proof.Machine

/-- `b0 || b1 || b2 || b3`, `b0` most significant (00_scope.md R7). -/
def word4 (b0 b1 b2 b3 : Byte) : Word := b0 ++ b1 ++ b2 ++ b3

/-- Byte `r` of a word, most significant first: byte 0 is bits [31:24] (10_state.md R23, 20_memory.md R53). -/
def byteOf (w : Word) (r : Fin 4) : Byte := w.extractLsb' (24 - 8 * r.val) 8

/-- `pack(X, c)`, which is also the word `w_c` of the key schedule (20_memory.md R53, 10_state.md R23). -/
def pack (X : Block) (c : Fin 4) : Word := word4 X[idx 0 c] X[idx 1 c] X[idx 2 c] X[idx 3 c]

/-- `unpack(X, k, v)`: column `k` takes the bytes of `v`, the other twelve bytes stay (20_memory.md R53, R56). -/
def unpack (X : Block) (k : Fin 4) (v : Word) : Block :=
  blockOf fun i => if colOf i = k then byteOf v (rowOf i) else X[i]

/-- The block whose column `c` holds the bytes of `n c`, most significant first (44_key_schedule.md R173). -/
def blockOfWords (n : Fin 4 → Word) : Block := blockOf fun i => byteOf (n (colOf i)) (rowOf i)

/-- A 4-bit index as a round index `j` in 0..9; `none` for 10 to 15, which no rule applies (30_encoding.md R85, 20_memory.md R69). -/
def roundIndex (j : BitVec 4) : Option (Fin 10) :=
  if h : j.toNat ≤ 9 then some ⟨j.toNat, by omega⟩ else none

end Sys2Proof.Machine
end

