-- ==== Sys2Proof/Machine/Ops.lean ====
section
/-! DEFINITION. The operations that instructions and accesses share: completing a command, raising a command error and
acknowledging it, reset, and the column writes of the host. -/

namespace Sys2Proof.Machine

/-- A primitive command completes: `SEQ <- DONE`, RND unchanged (30_encoding.md R92). -/
def State.complete (s : State) : State := { s with seq := .done }

/-- `raise CmdError(code)`: ERRCODE keeps the first code since the last clear, ERR is set, nothing else changes
(60_exceptions.md R232, R235). This is the core's one way of taking an exception. -/
def State.cmdError (s : State) (e : CmdErr) : State :=
  { s with errCode := if s.err then s.errCode else errCodeOf e, err := true }

/-- The host acknowledges an error: ERR and ERRCODE are cleared (60_exceptions.md R236, 20_memory.md R59). There is no
other return from an error. -/
def State.clearError (s : State) : State := { s with err := false, errCode := 0#3 }

/-- `Reset()` (70_reset_and_hazards.md R260): the control state is cleared and the data registers take 33 draws. It aborts an
ENCRYPT in progress (R262). -/
def State.applyReset (s : State) : State :=
  { s with
    state := drawBlock s.draws
    key := drawBlock (s.draws + 16)
    result := Config.any8 (s.draws + 32)
    seq := .idle
    rnd := 0#4
    err := false
    errCode := 0#3
    draws := s.draws + 33 }

/-- The window has answered the host's access. -/
def State.answered (s : State) (a : Answer) : State := { s with answer := a }

/-- One draw `any32()` has been taken. -/
def State.drewOne (s : State) : State := { s with draws := s.draws + 1 }

/-- `unpack(STATE, k, v)` (20_memory.md R56). -/
def State.writeState (s : State) (k : Fin 4) (v : Word) : State := { s with state := unpack s.state k v }

/-- `unpack(KEY, k, v)` (20_memory.md R56). -/
def State.writeKey (s : State) (k : Fin 4) (v : Word) : State := { s with key := unpack s.key k v }

/-- A command is performed only when BUSY = 0; otherwise `raise CmdError(1)` (30_encoding.md R87). -/
def whenNotBusy (s : State) (perform : State → Out) : Out :=
  if s.busy then .next (s.cmdError .busyCmd) else perform s

/-- A command that uses RIDX is performed only for a round index 0 to 9; otherwise `raise CmdError(5)` (30_encoding.md R85). -/
def withRoundIndex (s : State) (j : BitVec 4) (perform : Fin 10 → State → Out) : Out :=
  match roundIndex j with
  | none => .next (s.cmdError .badRidx)
  | some j => perform j s

end Sys2Proof.Machine
end

