-- ==== Sys2Proof/Machine/Rom.lean ====
section
/-! DEFINITION. The five constant tables (10_state.md R30), copied row by row from the spec. A row of a 256-entry table
is written as the 32 hex digits the spec prints for it, entry `l = 0` first. -/

namespace Sys2Proof.Machine

/-- A row of a ROM: its sixteen bytes, entry 0 in the most significant byte. -/
abbrev RomRow := BitVec 128

/-- Entry `16*h + l` of a ROM given by its rows: row `h = x[7:4]`, column `l = x[3:0]` (41_substitution.md R100). -/
def romEntry (rows : Vector RomRow 16) (x : Byte) : Byte :=
  rows[(x.extractLsb' 4 4).toFin].extractLsb' (120 - 8 * (x.extractLsb' 0 4).toNat) 8

/-- The rows of the S-box (41_substitution.md R100). -/
def sboxRows : Vector RomRow 16 := #v[
  0x637c777bf26b6fc53001672bfed7ab76#128,
  0xca82c97dfa5947f0add4a2af9ca472c0#128,
  0xb7fd9326363ff7cc34a5e5f171d83115#128,
  0x04c723c31896059a071280e2eb27b275#128,
  0x09832c1a1b6e5aa0523bd6b329e32f84#128,
  0x53d100ed20fcb15b6acbbe394a4c58cf#128,
  0xd0efaafb434d338545f9027f503c9fa8#128,
  0x51a3408f929d38f5bcb6da2110fff3d2#128,
  0xcd0c13ec5f974417c4a77e3d645d1973#128,
  0x60814fdc222a908846eeb814de5e0bdb#128,
  0xe0323a0a4906245cc2d3ac629195e479#128,
  0xe7c8376d8dd54ea96c56f4ea657aae08#128,
  0xba78252e1ca6b4c6e8dd741f4bbd8b8a#128,
  0x703eb5664803f60e613557b986c11d9e#128,
  0xe1f8981169d98e949b1e87e9ce5528df#128,
  0x8ca1890dbfe6426841992d0fb054bb16#128]

/-- The rows of the multiply-by-2 table (43_gf_column_mix.md R142). -/
def mul2Rows : Vector RomRow 16 := #v[
  0x00020406080a0c0e10121416181a1c1e#128,
  0x20222426282a2c2e30323436383a3c3e#128,
  0x40424446484a4c4e50525456585a5c5e#128,
  0x60626466686a6c6e70727476787a7c7e#128,
  0x80828486888a8c8e90929496989a9c9e#128,
  0xa0a2a4a6a8aaacaeb0b2b4b6b8babcbe#128,
  0xc0c2c4c6c8caccced0d2d4d6d8dadcde#128,
  0xe0e2e4e6e8eaeceef0f2f4f6f8fafcfe#128,
  0x1b191f1d131117150b090f0d03010705#128,
  0x3b393f3d333137352b292f2d23212725#128,
  0x5b595f5d535157554b494f4d43414745#128,
  0x7b797f7d737177756b696f6d63616765#128,
  0x9b999f9d939197958b898f8d83818785#128,
  0xbbb9bfbdb3b1b7b5aba9afada3a1a7a5#128,
  0xdbd9dfddd3d1d7d5cbc9cfcdc3c1c7c5#128,
  0xfbf9fffdf3f1f7f5ebe9efede3e1e7e5#128]

/-- The rows of the multiply-by-3 table (43_gf_column_mix.md R143). -/
def mul3Rows : Vector RomRow 16 := #v[
  0x000306050c0f0a09181b1e1d14171211#128,
  0x303336353c3f3a39282b2e2d24272221#128,
  0x606366656c6f6a69787b7e7d74777271#128,
  0x505356555c5f5a59484b4e4d44474241#128,
  0xc0c3c6c5cccfcac9d8dbdeddd4d7d2d1#128,
  0xf0f3f6f5fcfffaf9e8ebeeede4e7e2e1#128,
  0xa0a3a6a5acafaaa9b8bbbebdb4b7b2b1#128,
  0x909396959c9f9a99888b8e8d84878281#128,
  0x9b989d9e97949192838085868f8c898a#128,
  0xaba8adaea7a4a1a2b3b0b5b6bfbcb9ba#128,
  0xfbf8fdfef7f4f1f2e3e0e5e6efece9ea#128,
  0xcbc8cdcec7c4c1c2d3d0d5d6dfdcd9da#128,
  0x5b585d5e57545152434045464f4c494a#128,
  0x6b686d6e67646162737075767f7c797a#128,
  0x3b383d3e37343132232025262f2c292a#128,
  0x0b080d0e07040102131015161f1c191a#128]

/-- `SBOX[x]` (41_substitution.md R100). -/
def sboxRom (x : Byte) : Byte := romEntry sboxRows x

/-- `MUL2[x]` (43_gf_column_mix.md R142). -/
def mul2Rom (x : Byte) : Byte := romEntry mul2Rows x

/-- `MUL3[x]` (43_gf_column_mix.md R143). -/
def mul3Rom (x : Byte) : Byte := romEntry mul3Rows x

/-- `RC[j]`, the round constants; there is no entry beyond index 9 (44_key_schedule.md R170). -/
def rcRom : Fin 10 → Byte
  | 0 => 0x01#8
  | 1 => 0x02#8
  | 2 => 0x04#8
  | 3 => 0x08#8
  | 4 => 0x10#8
  | 5 => 0x20#8
  | 6 => 0x40#8
  | 7 => 0x80#8
  | 8 => 0x1B#8
  | 9 => 0x36#8

/-- Row `r` of the coefficient matrix (43_gf_column_mix.md R146). -/
def mixRow : Fin 4 → Vector (BitVec 2) 4
  | 0 => #v[2#2, 3#2, 1#2, 1#2]
  | 1 => #v[1#2, 2#2, 3#2, 1#2]
  | 2 => #v[1#2, 1#2, 2#2, 3#2]
  | 3 => #v[3#2, 1#2, 1#2, 2#2]

/-- `MIXMAT[r][k]` (43_gf_column_mix.md R146). -/
def mixMat (r k : Fin 4) : BitVec 2 := (mixRow r)[k]

end Sys2Proof.Machine
end

