-- ==== Sys2Proof/Machine/ColumnMix.lean ====
section
/-! DEFINITION. The GF(2^8) multiplier and the column mix: GFMUL and MIXCOLUMNS (43_gf_column_mix.md). -/

namespace Sys2Proof.Machine

/-- Multiplication by 2: a left shift, reduced by 0x1B when the top bit was set (43_gf_column_mix.md R141). -/
def xtime (a : Byte) : Byte := (a <<< 1) ^^^ (if a.getLsbD 7 then 0x1B#8 else 0x00#8)

/-- `GFMul(a, b)` (43_gf_column_mix.md R144). -/
def gfMul (a : Byte) (b : BitVec 2) : Byte :=
  match b.toFin with
  | 0 => 0x00#8
  | 1 => a
  | 2 => mul2Rom a
  | 3 => mul3Rom a

/-- Byte `r` of a mixed column whose old bytes are `a0` to `a3` (43_gf_column_mix.md R147). -/
def mixByte (r : Fin 4) (a0 a1 a2 a3 : Byte) : Byte :=
  gfMul a0 (mixMat r 0) ^^^ gfMul a1 (mixMat r 1) ^^^ gfMul a2 (mixMat r 2) ^^^ gfMul a3 (mixMat r 3)

/-- The column mix: each output byte from the old bytes of its own column (43_gf_column_mix.md R147). -/
def mixColumns (b : Block) : Block :=
  blockOf fun i => mixByte (rowOf i) b[idx 0 (colOf i)] b[idx 1 (colOf i)] b[idx 2 (colOf i)] b[idx 3 (colOf i)]

/-- The column mix of STATE. -/
def State.mixColumns (s : State) : State := { s with state := Machine.mixColumns s.state }

/-- GFMUL a, b: `RESULT <- GFMul(A, B)`, then completion (43_gf_column_mix.md R145). -/
def execGfmul (a : Byte) (b : BitVec 2) (s : State) : Out :=
  whenNotBusy s fun s => .next ({ s with result := gfMul a b } : State).complete

/-- MIXCOLUMNS: the column mix, then completion (43_gf_column_mix.md R148). -/
def execMixcolumns (s : State) : Out :=
  whenNotBusy s fun s => .next s.mixColumns.complete

end Sys2Proof.Machine
end

