-- ==== Sys2Proof/Machine/Substitution.lean ====
section
/-! DEFINITION. The substitution stage: SBOX and SUBBYTES (41_substitution.md). -/

namespace Sys2Proof.Machine

/-- `Sub(x) = SBOX[x]` (41_substitution.md R101). -/
def sub (x : Byte) : Byte := sboxRom x

/-- Every byte through the S-box (41_substitution.md R103). -/
def subBytes (b : Block) : Block := blockOf fun i => sub b[i]

/-- SUBBYTES on STATE. -/
def State.subBytes (s : State) : State := { s with state := Machine.subBytes s.state }

/-- SBOX a: `RESULT <- SBOX[A]`, then completion (41_substitution.md R102). -/
def execSbox (a : Byte) (s : State) : Out :=
  whenNotBusy s fun s => .next ({ s with result := sub a } : State).complete

/-- SUBBYTES: every byte of STATE, then completion (41_substitution.md R103). -/
def execSubbytes (s : State) : Out :=
  whenNotBusy s fun s => .next s.subBytes.complete

end Sys2Proof.Machine
end

