-- ==== Sys2Proof/Machine/KeySchedule.lean ====
section
/-! DEFINITION. The key-schedule engine: KEYSTEP (44_key_schedule.md). -/

namespace Sys2Proof.Machine

/-- `RotWord`: left by one byte (44_key_schedule.md R171). -/
def rotWord (w : Word) : Word := word4 (byteOf w 1) (byteOf w 2) (byteOf w 3) (byteOf w 0)

/-- `SubWord`: each byte through the S-box (44_key_schedule.md R172). -/
def subWord (w : Word) : Word := word4 (sub (byteOf w 0)) (sub (byteOf w 1)) (sub (byteOf w 2)) (sub (byteOf w 3))

/-- The transformed word `t` of step 1 (44_key_schedule.md R173). -/
def keyTemp (w3 : Word) (j : Fin 10) : Word := subWord (rotWord w3) ^^^ word4 (rcRom j) 0x00#8 0x00#8 0x00#8

/-- `KeyStep(KEY, j)`: steps 2 to 5 chain through the new words (44_key_schedule.md R173). -/
def keyStep (k : Block) (j : Fin 10) : Block :=
  let n0 := pack k 0 ^^^ keyTemp (pack k 3) j
  let n1 := n0 ^^^ pack k 1
  let n2 := n1 ^^^ pack k 2
  let n3 := n2 ^^^ pack k 3
  blockOfWords fun c =>
    match c with
    | 0 => n0
    | 1 => n1
    | 2 => n2
    | 3 => n3

/-- The key-schedule step of KEY. -/
def State.keyStep (s : State) (j : Fin 10) : State := { s with key := Machine.keyStep s.key j }

/-- KEYSTEP j: the key step, then completion; RND is not touched (44_key_schedule.md R174). -/
def execKeystep (j : BitVec 4) (s : State) : Out :=
  whenNotBusy s fun s => withRoundIndex s j fun j s => .next (s.keyStep j).complete

end Sys2Proof.Machine
end

