-- ==== Sys2Proof/Machine/RowShift.lean ====
section
/-! DEFINITION. The row-shift permutation: SHIFTROWS (42_row_shift.md). -/

namespace Sys2Proof.Machine

/-- `s'(r,c) = s(r, (c + r) mod 4)`, every source byte read from the old block (42_row_shift.md R120). Addition in `Fin 4`
is modulo 4. -/
def shiftRows (b : Block) : Block := blockOf fun i => b[idx (rowOf i) (colOf i + rowOf i)]

/-- The row shift of STATE. -/
def State.shiftRows (s : State) : State := { s with state := Machine.shiftRows s.state }

/-- SHIFTROWS: the row shift, then completion (42_row_shift.md R121). -/
def execShiftrows (s : State) : Out :=
  whenNotBusy s fun s => .next s.shiftRows.complete

end Sys2Proof.Machine
end

