-- ==== Sys2Proof/Machine/Sequencer.lean ====
section
/-! DEFINITION. Key addition, one round, the round sequencer and its commands ADDKEY, ROUND, NOP, ENCRYPT
(45_round_sequencer.md). -/

namespace Sys2Proof.Machine

/-- `AddRoundKey(STATE, KEY)`: byte-wise XOR (45_round_sequencer.md R190). -/
def addRoundKey (b k : Block) : Block := blockOf fun i => b[i] ^^^ k[i]

/-- Key addition on STATE; KEY is not changed. -/
def State.addRoundKey (s : State) : State := { s with state := Machine.addRoundKey s.state s.key }

/-- The column mix of a round, which round `j = 9` skips (45_round_sequencer.md R192). -/
def State.mixUnlessLast (s : State) (j : Fin 10) : State := if j ≠ 9 then s.mixColumns else s

/-- `Round(j)`, in the normative order: the key is stepped before it is added (45_round_sequencer.md R192). -/
def State.applyRound (s : State) (j : Fin 10) : State :=
  (((s.subBytes.shiftRows).mixUnlessLast j).keyStep j).addRoundKey

/-- ADDKEY: key addition, then completion (45_round_sequencer.md R191). -/
def execAddkey (s : State) : Out :=
  whenNotBusy s fun s => .next s.addRoundKey.complete

/-- ROUND j: one full round, then completion; RND is not touched (45_round_sequencer.md R193). -/
def execRound (j : BitVec 4) (s : State) : Out :=
  whenNotBusy s fun s => withRoundIndex s j fun j s => .next (s.applyRound j).complete

/-- NOP: completion only (45_round_sequencer.md R194). -/
def execNop (s : State) : Out :=
  whenNotBusy s fun s => .next s.complete

/-- ENCRYPT is accepted: `SEQ <- INITIAL`, `RND <- 0` (45_round_sequencer.md R195). -/
def State.startEncrypt (s : State) : State := { s with seq := .initial, rnd := 0#4 }

/-- ENCRYPT, at acceptance; the work is done by the core steps (45_round_sequencer.md R195). -/
def execEncrypt (s : State) : Out :=
  whenNotBusy s fun s => .next s.startEncrypt

/-- The core step in INITIAL: the whitening (45_round_sequencer.md R196). -/
def State.initialStep (s : State) : State := { s.addRoundKey with seq := .round, rnd := 0#4 }

/-- The core step in ROUND with `j = RND` in 0..9 (45_round_sequencer.md R197). -/
def State.roundStep (s : State) (j : Fin 10) : State :=
  { s.applyRound j with rnd := s.rnd + 1#4, seq := if j = 9 then .done else .round }

/-- One turn of the core. It has a step only in INITIAL and ROUND; in IDLE and DONE it waits (45_round_sequencer.md R198). RND
from 10 to 15 in ROUND has no step and is never reached (10_state.md R27): the machine is stuck there. -/
def coreStep (s : State) : Out :=
  match s.seq with
  | .idle => .next s
  | .initial => .next s.initialStep
  | .round =>
    match roundIndex s.rnd with
    | none => .fault (.roundOutOfRange s.rnd)
    | some j => .next (s.roundStep j)
  | .done => .next s

/-- `n` turns of the core in a row, stopping at a fault. -/
def coreSteps : Nat → State → Out
  | 0, s => .next s
  | n + 1, s =>
    match coreStep s with
    | .next t => coreSteps n t
    | .fault f => .fault f
    | .refused r => .refused r

end Sys2Proof.Machine
end

