-- ==== Sys2Proof/Machine/Dispatch.lean ====
section
/-! DEFINITION. One arm per command (30_encoding.md R82): what a command written to CTRL does. -/

namespace Sys2Proof.Machine

def exec (i : Instr) (s : State) : Host.Outcome State Fault Refusal :=
  match i with
  | .nop => Sys2Proof.Machine.execNop s
  | .sbox a => Sys2Proof.Machine.execSbox a s
  | .subbytes => Sys2Proof.Machine.execSubbytes s
  | .shiftrows => Sys2Proof.Machine.execShiftrows s
  | .gfmul a b => Sys2Proof.Machine.execGfmul a b s
  | .mixcolumns => Sys2Proof.Machine.execMixcolumns s
  | .keystep j => Sys2Proof.Machine.execKeystep j s
  | .addkey => Sys2Proof.Machine.execAddkey s
  | .round j => Sys2Proof.Machine.execRound j s
  | .encrypt => Sys2Proof.Machine.execEncrypt s

end Sys2Proof.Machine
end

