-- ==== Sys2Proof/Machine/Window.lean ====
section
/-! DEFINITION. The register window: the address map, each register's access semantics, and one turn of the host
(20_memory.md, 30_encoding.md R87). -/

namespace Sys2Proof.Machine

/-- The registers of the window (20_memory.md R52). -/
inductive Reg where
  | ctrl
  | status
  | result
  | state (k : Fin 4)
  | key (k : Fin 4)
  deriving DecidableEq, Repr

/-- The address map (20_memory.md R52): `none` at the unmapped offsets 0x0C and 0x30 to 0x3C, and at every offset that is
not a multiple of 4 (R51). -/
def regAt (off : BitVec 6) : Option Reg :=
  if off = 0x00#6 then some .ctrl
  else if off = 0x04#6 then some .status
  else if off = 0x08#6 then some .result
  else if off = 0x10#6 then some (.state 0)
  else if off = 0x14#6 then some (.state 1)
  else if off = 0x18#6 then some (.state 2)
  else if off = 0x1C#6 then some (.state 3)
  else if off = 0x20#6 then some (.key 0)
  else if off = 0x24#6 then some (.key 1)
  else if off = 0x28#6 then some (.key 2)
  else if off = 0x2C#6 then some (.key 3)
  else none

/-- The width of an access in bytes. -/
def Xfer.width : Xfer → Nat
  | .read n => n
  | .write n _ => n

/-- The register a legal access acts on: 4 bytes wide, at a mapped offset that is a multiple of 4. Every other access is
refused (20_memory.md R51). -/
def legalReg (off : BitVec 6) (x : Xfer) : Option Reg :=
  if x.width = 4 ∧ off.toNat % 4 = 0 then regAt off else none

/-- A read of a data register: the packed column when BUSY = 0, a draw when BUSY = 1 (20_memory.md R54, R55). -/
def readColumn (X : Block) (k : Fin 4) (s : State) : Word × State :=
  if s.busy then (Config.any32 s.draws, s.drewOne) else (pack X k, s)

/-- `MemRead(off, 4)`: the data, and the state, in which at most the draw counter has moved (20_memory.md R54, R55, R58 to R61). -/
def readReg (r : Reg) (s : State) : Word × State :=
  match r with
  | .ctrl => (0x00000000#32, s)
  | .status => (s.statusWord, s)
  | .result => (s.result.setWidth 32, s)
  | .state k => readColumn s.state k s
  | .key k => readColumn s.key k s

/-- A CTRL write (30_encoding.md R87): BUSY is read before any field of `v`; then the decoder's verdict. -/
def ctrlWrite (v : Word) (s : State) : Out :=
  if s.busy then .next (s.cmdError .busyCmd)
  else
    match decodeWord v with
    | .illegal e => .next (s.cmdError e)
    | .legal i => exec i s

/-- A STATUS write: bit 2 clears ERR and ERRCODE, every other bit is ignored (20_memory.md R59). -/
def statusWrite (v : Word) (s : State) : State := if v.getLsbD 2 then s.clearError else s

/-- A write of a data register: performed when BUSY = 0 (20_memory.md R56), `raise CmdError(2)` when BUSY = 1 (R57). -/
def dataWrite (perform : State → State) (s : State) : State :=
  if s.busy then s.cmdError .busyData else perform s

/-- `MemWrite(off, 4, v)` (20_memory.md R56 to R61). A write to RESULT is ignored (R60). -/
def writeReg (r : Reg) (v : Word) (s : State) : Out :=
  match r with
  | .ctrl => ctrlWrite v s
  | .status => .next (statusWrite v s)
  | .result => .next s
  | .state k => .next (dataWrite (fun s => s.writeState k v) s)
  | .key k => .next (dataWrite (fun s => s.writeKey k v) s)

/-- The data of an access that gets a bus error: a draw for a read, none for a write (60_exceptions.md R233). -/
def busErrorData (x : Xfer) (s : State) : Option Word :=
  match x with
  | .read _ => some (Config.any32 s.draws)
  | .write _ _ => none

/-- A legal access to register `r`; the window answers it (20_memory.md R54 to R61). -/
def accessReg (r : Reg) (x : Xfer) (s : State) : Out :=
  match x with
  | .read _ => .next ((readReg r s).2.answered (.data (readReg r s).1))
  | .write _ v => writeReg r v (s.answered .written)

/-- One access at an offset of the window. The bus-error check comes first (60_exceptions.md R234). -/
def accessWindow (off : BitVec 6) (x : Xfer) (s : State) : Out :=
  match legalReg off x with
  | none => .fault (.busError off x (busErrorData x s))
  | some r => accessReg r x s

/-- The offset of a host byte address in the window, `none` outside it: "The core decodes no address outside the window"
(20_memory.md R50). -/
def windowOffset (addr : Nat) : Option (BitVec 6) :=
  if Config.baseAddr ≤ addr ∧ addr < Config.baseAddr + 0x40 then some (BitVec.ofNat 6 (addr - Config.baseAddr)) else none

/-- An access at a host byte address: outside the window the core does nothing and answers nothing. -/
def accessBus (addr : Nat) (x : Xfer) (s : State) : Out :=
  match windowOffset addr with
  | none => .next (s.answered .silent)
  | some off => accessWindow off x s

/-- One turn of a `WAIT` loop: a STATUS read; while its bit 0 is 1 the loop stays the host's next statement, and then it goes
on with `rest` (30_encoding.md R91). -/
def waitTurn (rest : List HostOp) (s : State) : State :=
  if s.statusWord.getLsbD 0 then s.answered (.data s.statusWord)
  else ({ s with host := rest } : State).answered (.data s.statusWord)

/-- One turn of the host: its next statement; with none left it does nothing. -/
def hostStep (s : State) : Out :=
  match s.host with
  | [] => .next s
  | .access off x :: rest => accessWindow off x { s with host := rest }
  | .bus addr x :: rest => accessBus addr x { s with host := rest }
  | .wait :: rest => .next (waitTurn rest s)

end Sys2Proof.Machine
end

