-- ==== Sys2Proof/Machine/Step.lean ====
section
/-! DEFINITION. One step of the whole machine: one turn of the host, the core or the reset input (00_scope.md R5,
20_memory.md R62). Accesses, core steps and resets are each one whole step, so they are totally ordered. -/

namespace Sys2Proof.Machine

/-- One step. The head of `turns` says who moves. With no turn listed a busy core moves, and otherwise the host: the fair
choice of 70_reset_and_hazards.md R268 ("while BUSY = 1, the core step is eventually taken"). -/
def step (s : State) : Host.Outcome State Fault Refusal :=
  match s.turns with
  | .host :: rest => hostStep { s with turns := rest }
  | .core :: rest => coreStep { s with turns := rest }
  | .reset :: rest => .next ({ s with turns := rest } : State).applyReset
  | [] => if s.busy then coreStep s else hostStep s

/-- The command word placed where the machine takes its next command from: the host's next statement writes it to CTRL
(30_encoding.md R87), and the next turn is the host's. The core fetches nothing (20_memory.md R67). -/
def State.withFetchWord (s : State) (nbits w : Nat) : State :=
  { s with
    host := .access 0x00#6 (.write 4 (tableWord nbits w)) :: s.host
    turns := .host :: s.turns }

end Sys2Proof.Machine
end

