-- ==== Sys2Proof/Machine/HostProgram.lean ====
section
/-! DEFINITION. The statements and pseudo-instructions of host programs (30_encoding.md R91), each as the accesses it
expands to. `EXPECT` is a test assertion and "no part of the core", so it has no entry beyond its read. -/

namespace Sys2Proof.Machine

/-- `WR off, v` is `MemWrite(off, 4, v)`. -/
def hostWr (off : BitVec 6) (v : Word) : HostOp := .access off (.write 4 v)

/-- `RD off -> t` is `t <- MemRead(off, 4)`; `t` is `State.answer`. -/
def hostRd (off : BitVec 6) : HostOp := .access off (.read 4)

/-- `CMD m ops` expands to `WR 0x00, enc(m ops)`. -/
def hostCmd (i : Instr) : HostOp := hostWr 0x00#6 (encode i)

/-- `LDSTATE v0, v1, v2, v3`. -/
def hostLdState (v0 v1 v2 v3 : Word) : List HostOp :=
  [hostWr 0x10#6 v0, hostWr 0x14#6 v1, hostWr 0x18#6 v2, hostWr 0x1C#6 v3]

/-- `LDKEY v0, v1, v2, v3`. -/
def hostLdKey (v0 v1 v2 v3 : Word) : List HostOp :=
  [hostWr 0x20#6 v0, hostWr 0x24#6 v1, hostWr 0x28#6 v2, hostWr 0x2C#6 v3]

/-- `WAIT`. -/
def hostWait : HostOp := .wait

/-- `CLRERR` expands to `WR 0x04, 0x00000004`. -/
def hostClrErr : HostOp := hostWr 0x04#6 0x00000004#32

end Sys2Proof.Machine
end

