-- ==== Sys2Proof/Machine/Reference.lean ====
section
/-! DEFINITION. What the stages compute, said a second way, for claims to compare the machine with: the field product of
43_gf_column_mix.md R140, the S-box construction of 41_substitution.md R100, the round-key sequence of 44_key_schedule.md
R176, and AES-128 encryption with its eleven round keys given up front. No step of the machine calls these. -/

namespace Sys2Proof.Machine

/-- The polynomial product of two bytes over GF(2), not yet reduced (43_gf_column_mix.md R140). -/
def polyProduct (a b : Byte) : BitVec 16 :=
  [0, 1, 2, 3, 4, 5, 6, 7].foldl (fun p i => if b.getLsbD i then p ^^^ (a.setWidth 16 <<< i) else p) 0#16

/-- Reduction by x^8+x^4+x^3+x+1, "0x11B as a 9-bit number" (43_gf_column_mix.md R140). -/
def polyReduce (p : BitVec 16) : Byte :=
  ([14, 13, 12, 11, 10, 9, 8].foldl (fun p i => if p.getLsbD i then p ^^^ (0x11B#16 <<< (i - 8)) else p) p).setWidth 8

/-- Multiplication in GF(2^8) (43_gf_column_mix.md R140). -/
def fieldMul (a b : Byte) : Byte := polyReduce (polyProduct a b)

/-- `Affine(y)`: bit `i` is `y[i] ^ y[(i+4) mod 8] ^ y[(i+5) mod 8] ^ y[(i+6) mod 8] ^ y[(i+7) mod 8] ^ 0x63[i]`
(41_substitution.md R100). -/
def affine (y : Byte) : Byte :=
  y ^^^ y.rotateRight 4 ^^^ y.rotateRight 5 ^^^ y.rotateRight 6 ^^^ y.rotateRight 7 ^^^ 0x63#8

/-- `RK[n]` of the original key `k`: `RK[0] = K`, `RK[n+1] = KeyStep(RK[n], n)` for n in 0..9 (44_key_schedule.md R176). There
is no step beyond `RK[10]`. -/
def roundKey (k : Block) : Nat → Block
  | 0 => k
  | n + 1 => if h : n < 10 then keyStep (roundKey k n) ⟨n, h⟩ else roundKey k n

/-- The state after the whitening and `n` full rounds, with the round keys of `k` given up front (90_conflicts.md C3). -/
def fullRounds (b k : Block) : Nat → Block
  | 0 => addRoundKey b k
  | n + 1 => addRoundKey (mixColumns (shiftRows (subBytes (fullRounds b k n)))) (roundKey k (n + 1))

/-- AES-128 encryption of block `b` under key `k`: nine full rounds and a tenth without the column mix
(45_round_sequencer.md R192, R199). -/
def aes128 (b k : Block) : Block :=
  addRoundKey (shiftRows (subBytes (fullRounds b k 9))) (roundKey k 10)

end Sys2Proof.Machine
end

