-- ==== Sys2Proof/Safety.lean ====
section
/-! DEFINITION. What counts as a good state and a safe host, in the terms claims use. -/

namespace Sys2Proof.Machine

/-- The values RND may have in each state of the sequencer: 0 before and at the start of an ENCRYPT, the round index 0 to 9
in ROUND, and in DONE the 10 that ENCRYPT leaves or the 0 from before the first ENCRYPT (10_state.md R26, R27). -/
def seqLegal (q : Seq) (rnd : BitVec 4) : Bool :=
  match q with
  | .idle => decide (rnd = 0#4)
  | .initial => decide (rnd = 0#4)
  | .round => decide (rnd.toNat ≤ 9)
  | .done => decide (rnd = 0#4 ∨ rnd = 10#4)

/-- ERRCODE is 0 when ERR is clear and one of the codes 1 to 5 when ERR is set (10_state.md R29, 60_exceptions.md R231). -/
def errLegal (err : Bool) (code : BitVec 3) : Bool :=
  if err then decide (1 ≤ code.toNat ∧ code.toNat ≤ 5) else decide (code = 0#3)

/-- The invariant of the machine. -/
structure State.Inv (s : State) : Prop where
  seqRnd : seqLegal s.seq s.rnd = true
  errFlag : errLegal s.err s.errCode = true

/-- The statement makes no access that 20_memory.md R51 refuses. An address outside the window is no access of the core. -/
def HostOp.safe : HostOp → Bool
  | .access off x => (legalReg off x).isSome
  | .bus addr x =>
    match windowOffset addr with
    | none => true
    | some off => (legalReg off x).isSome
  | .wait => true

/-- Every statement the host still has to make is safe. -/
def State.hostSafe (s : State) : Bool := s.host.all HostOp.safe

/-- Two states agree on everything but the data: STATE, KEY, RESULT and the last answer may differ. -/
structure State.SameControl (s t : State) : Prop where
  seq : s.seq = t.seq
  rnd : s.rnd = t.rnd
  err : s.err = t.err
  errCode : s.errCode = t.errCode
  draws : s.draws = t.draws
  host : s.host = t.host
  turns : s.turns = t.turns

/-- The statement the host carries out next, and the state with it and its turn taken off; `none` where the core or the
reset moves next, or the host has nothing left. -/
def State.hostTakes (s : State) : Option (HostOp × State) :=
  match s.turns, s.host with
  | .host :: ts, op :: rest => some (op, { s with turns := ts, host := rest })
  | [], op :: rest => if s.busy then none else some (op, { s with host := rest })
  | _, _ => none

/-- The host takes a 4-byte write of `v` at window offset `off` next, by offset or by byte address, and `u` is the state with
it and its turn taken off. -/
def State.takesWrite (s : State) (off : BitVec 6) (v : Word) (u : State) : Prop :=
  s.hostTakes = some (.access off (.write 4 v), u)
    ∨ ∃ addr, windowOffset addr = some off ∧ s.hostTakes = some (.bus addr (.write 4 v), u)

/-- The event "accept" of 45_round_sequencer.md R200, but for the test of BUSY: the host takes a CTRL write next, and its word
decodes to the command `i`. -/
def State.takesCommand (s : State) (i : Instr) (u : State) : Prop :=
  ∃ v, s.takesWrite 0x00#6 v u ∧ decodeWord v = .legal i

/-- It is the core's turn: a listed one, or the fair one of a busy core where no turn is listed. The event "step" of
45_round_sequencer.md R200 is such a turn while BUSY = 1. -/
def State.coreMoves (s : State) : Prop := s.turns.head? = some .core ∨ (s.turns = [] ∧ s.busy = true)

/-- Commands written to CTRL one after the other, with no core step between them. -/
def execList : List Instr → State → Out
  | [], s => .next s
  | i :: is, s =>
    match exec i s with
    | .next t => execList is t
    | .fault f => .fault f
    | .refused r => .refused r

/-- The stages of round `j` as commands (45_round_sequencer.md R193): the column mix is left out for `j = 9`. -/
def roundStages (j : BitVec 4) : List Instr :=
  [.subbytes, .shiftrows] ++ (if j = 9#4 then [] else [.mixcolumns]) ++ [.keystep j, .addkey]

/-- `s` is a state of an ENCRYPT of block `b` under key `k`, between acceptance and completion, both included: STATE is what
the rounds done so far make of `b`, and KEY is `RK[RND]` of `k` (45_round_sequencer.md R196, R197, R199, R201). -/
def State.EncryptOf (b k : Block) (s : State) : Prop :=
  match s.seq with
  | .idle => False
  | .initial => s.rnd = 0#4 ∧ s.state = b ∧ s.key = k
  | .round => s.rnd.toNat ≤ 9 ∧ s.state = fullRounds b k s.rnd.toNat ∧ s.key = roundKey k s.rnd.toNat
  | .done => s.rnd = 10#4 ∧ s.state = aes128 b k ∧ s.key = roundKey k 10

/-- A command is rejected with BUSY_CMD while BUSY = 1 (30_encoding.md R87). -/
def RejectedWhileBusy (i : Instr) : Prop := ∀ s : State, s.busy = true → exec i s = .next (s.cmdError .busyCmd)

/-- A word of opcode `op` with any bit other than [3:0] set is rejected with RSVD_BITS (30_encoding.md R83). -/
def OnlyOpcodeBits (op : BitVec 4) : Prop :=
  ∀ v : Word, opField v = op → v.extractLsb' 4 28 ≠ 0#28 → decodeWord v = .illegal .rsvdBits

/-- The field RSV = v[31:18] (30_encoding.md R80). -/
def rsvField (v : Word) : BitVec 14 := v.extractLsb' 18 14

end Sys2Proof.Machine
end

