-- ==== Sys2Proof/Certificates/Slice0/Obligations.lean ====
section
/-! DEFINITION. The statements for the provers. Each docstring names the rules of the spec it formalises. Draw numbers
(`Config.any8`, `Config.any32` applied to `State.draws`) are the model's own (log entries 1 to 3), as are the fields `host`,
`turns` and `answer` (log entries 4 to 6). -/

open Sys2Proof Sys2Proof.Machine

/-! ### Reset -/

/-- 70_reset_and_hazards.md R260, R261, R270: after reset the control state is clear, STATUS reads 0, and the core waits. -/
def Obligations.ResetStateHasClearControl : Prop :=
  State.reset.seq = .idle ∧ State.reset.rnd = 0#4 ∧ State.reset.err = false ∧ State.reset.errCode = 0#3
    ∧ State.reset.busy = false ∧ State.reset.isDone = false ∧ State.reset.statusWord = 0x00000000#32
    ∧ coreStep State.reset = .next State.reset

/-- 70_reset_and_hazards.md R260, R262: a reset, at any time, clears the control state, aborts an ENCRYPT, and puts draws in
STATE, KEY and RESULT. Which draws (their numbers) is the model's choice (log entry 1). -/
def Obligations.ResetTurnClearsControlAndAborts : Prop :=
  ∀ (s : State) (ts : List Turn), s.turns = .reset :: ts →
    ∃ t, step s = .next t ∧ t.seq = .idle ∧ t.rnd = 0#4 ∧ t.err = false ∧ t.errCode = 0#3
      ∧ t.busy = false ∧ coreStep t = .next t
      ∧ (∀ i : Fin 16, t.state[i] = Config.any8 (s.draws + i.val))
      ∧ (∀ i : Fin 16, t.key[i] = Config.any8 (s.draws + 16 + i.val))
      ∧ t.result = Config.any8 (s.draws + 32)
      ∧ t.host = s.host ∧ t.turns = ts ∧ t.answer = s.answer

/-! ### Encoding -/

/-- 30_encoding.md R83, R86, R90: decoding the encoded word of a well-formed command gives the command back. -/
def Obligations.DecodeOfEncode : Prop := ∀ i : Instr, i.wf = true → decodeWord (encode i) = .legal i

/-- 30_encoding.md R83: "every legal command has exactly one encoding per choice of its used fields". -/
def Obligations.LegalWordIsItsEncoding : Prop :=
  ∀ (v : Word) (i : Instr), decodeWord v = .legal i → i.wf = true ∧ encode i = v

/-- 30_encoding.md R93: the admitted words, form by form, that there are 1306 of them, and the code that every
other word is rejected with (R86). -/
def Obligations.AdmittedWordsExactly : Prop :=
  (∀ v : Word, (∃ i, decodeWord v = .legal i) ↔
    (v ∈ [0x00000000#32, 0x00000002#32, 0x00000003#32, 0x00000005#32, 0x00000007#32, 0x00000009#32]
      ∨ (∃ j : BitVec 4, j.toNat ≤ 9 ∧ (v = 0#24 ++ j ++ 0x6#4 ∨ v = 0#24 ++ j ++ 0x8#4))
      ∨ (∃ a : Byte, v = 0#16 ++ a ++ 0x01#8)
      ∨ (∃ (a : Byte) (b : BitVec 2), v = 0#14 ++ b ++ a ++ 0x04#8)))
  ∧ (∃ l : List Word, l.Nodup ∧ l.length = 1306 ∧ ∀ v : Word, v ∈ l ↔ ∃ i, decodeWord v = .legal i)
  ∧ ∀ v : Word, (∀ i, decodeWord v ≠ .legal i) →
      decodeWord v = .illegal (if 0xA ≤ (opField v).toNat then .rsvdOp
        else if v &&& ~~~(usedMask (opField v)) ≠ 0#32 then .rsvdBits else .badRidx)

/-- 30_encoding.md R90 and 95_test_vectors.md: some words written out, and what they stand for. -/
def Obligations.SampleWordsDecode : Prop :=
  decodeWord 0x00000000#32 = .legal .nop ∧ decodeWord 0x00005301#32 = .legal (.sbox 0x53#8)
    ∧ decodeWord 0x00035704#32 = .legal (.gfmul 0x57#8 3#2) ∧ decodeWord 0x00000096#32 = .legal (.keystep 9#4)
    ∧ decodeWord 0x00000098#32 = .legal (.round 9#4) ∧ decodeWord 0x00000009#32 = .legal .encrypt
    ∧ decodeWord 0x000001A6#32 = .illegal .rsvdBits ∧ decodeWord 0xFFFFFFFF#32 = .illegal .rsvdOp

/-- 30_encoding.md R84: a reserved opcode is rejected with RSVD_OP, whatever the other bits, and has no other effect. -/
def Obligations.ReservedOpcodeRejected : Prop :=
  ∀ (v : Word) (s : State), 0xA ≤ (opField v).toNat →
    decodeWord v = .illegal .rsvdOp ∧ errCodeOf .rsvdOp = 4#3
      ∧ (s.busy = false → ctrlWrite v s = .next (s.cmdError .rsvdOp))

/-- 30_encoding.md R83: a bit outside the opcode's mask is rejected with RSVD_BITS, code 3; the masks are as the rule lists
them; and no two words decode to one legal command. -/
def Obligations.UnusedBitRejected : Prop :=
  (∀ v : Word, (opField v).toNat ≤ 9 → v &&& ~~~(usedMask (opField v)) ≠ 0#32 →
    decodeWord v = .illegal .rsvdBits ∧ errCodeOf .rsvdBits = 3#3
      ∧ ∀ s : State, s.busy = false → ctrlWrite v s = .next (s.cmdError .rsvdBits))
  ∧ (∀ op : BitVec 4, usedMask op =
      if op = 0x1#4 then 0x0000FF0F#32 else if op = 0x4#4 then 0x0003FF0F#32
      else if op = 0x6#4 ∨ op = 0x8#4 then 0x000000FF#32 else 0x0000000F#32)
  ∧ ∀ (v v' : Word) (i : Instr), decodeWord v = .legal i → decodeWord v' = .legal i → v = v'

/-- 30_encoding.md R85: RIDX from 10 to 15 is rejected with BAD_RIDX, by the decoder and by the commands themselves. -/
def Obligations.BadRoundIndexRejected : Prop :=
  ∀ (j : BitVec 4) (s : State), 9 < j.toNat →
    decodeWord (0#24 ++ j ++ 0x6#4) = .illegal .badRidx ∧ decodeWord (0#24 ++ j ++ 0x8#4) = .illegal .badRidx
    ∧ errCodeOf .badRidx = 5#3
    ∧ (s.busy = false → ctrlWrite (0#24 ++ j ++ 0x6#4) s = .next (s.cmdError .badRidx)
        ∧ ctrlWrite (0#24 ++ j ++ 0x8#4) s = .next (s.cmdError .badRidx))
    ∧ (s.busy = false → exec (.keystep j) s = .next (s.cmdError .badRidx)
        ∧ exec (.round j) s = .next (s.cmdError .badRidx))

/-! ### Dispatch and errors -/

/-- 30_encoding.md R87: the step that takes a legal command word runs the command. Around it the step takes the access and the
turn off their lists and answers the write (log entries 4 to 6). The word reaches CTRL by the host's next statement, or by
`withFetchWord`. -/
def Obligations.StepRunsDecodedCommand : Prop :=
  (∀ (s t : State) (v : Word) (i : Instr), s.hostTakes = some (.access 0x00#6 (.write 4 v), t) → s.busy = false →
    decodeWord v = .legal i → step s = exec i { t with answer := .written })
  ∧ (∀ (s : State) (nbits w : Nat) (i : Instr), s.busy = false → decodeTableWord nbits w = some i →
    step (s.withFetchWord nbits w) = exec i { s with answer := .written })

/-- 30_encoding.md R87: BUSY is read before any field of the word; then the verdict of the decoder. -/
def Obligations.CtrlWriteIsDispatched : Prop :=
  ∀ (s t : State) (v : Word), s.hostTakes = some (.access 0x00#6 (.write 4 v), t) →
    (s.busy = true → step s = .next (({ t with answer := .written } : State).cmdError .busyCmd))
    ∧ (∀ e, s.busy = false → decodeWord v = .illegal e →
        step s = .next (({ t with answer := .written } : State).cmdError e))
    ∧ (∀ i, s.busy = false → decodeWord v = .legal i → step s = exec i { t with answer := .written })

/-- 60_exceptions.md R231, R232: ERR is set, ERRCODE keeps the first code since the last clear, nothing else changes. -/
def Obligations.CommandErrorKeepsFirstCode : Prop :=
  ∀ (s : State) (e : CmdErr),
    (s.err = false → s.cmdError e = { s with err := true, errCode := errCodeOf e })
    ∧ (s.err = true → s.cmdError e = s)
    ∧ errCodeOf .busyCmd = 1#3 ∧ errCodeOf .busyData = 2#3 ∧ errCodeOf .rsvdBits = 3#3
    ∧ errCodeOf .rsvdOp = 4#3 ∧ errCodeOf .badRidx = 5#3

/-- 10_state.md R28, R29, 60_exceptions.md R236: once set, ERR and its code stay until a reset or a STATUS write with bit 2. -/
def Obligations.ErrorStaysUntilAcknowledged : Prop :=
  ∀ s t : State, step s = .next t → s.err = true →
    (t.err = true ∧ t.errCode = s.errCode) ∨ s.turns.head? = some .reset
    ∨ ∃ v u, v.getLsbD 2 = true ∧
        (s.hostTakes = some (.access 0x04#6 (.write 4 v), u)
          ∨ ∃ addr, windowOffset addr = some 0x04#6 ∧ s.hostTakes = some (.bus addr (.write 4 v), u))

/-! ### The commands -/

/-- 45_round_sequencer.md R194: NOP only completes. -/
def Obligations.NopOnlyCompletes : Prop :=
  (∀ s : State, s.busy = false → exec .nop s = .next { s with seq := .done })
  ∧ RejectedWhileBusy .nop ∧ encode .nop = 0x00000000#32 ∧ OnlyOpcodeBits 0x0#4
  ∧ ∀ t, exec .nop State.reset = .next t → t.statusWord = 0x00000302#32

/-- 41_substitution.md R102: SBOX puts SBOX[A] in RESULT and changes nothing else. -/
def Obligations.SboxLooksUpOneByte : Prop :=
  (∀ (a : Byte) (s : State), s.busy = false → exec (.sbox a) s = .next { s with result := sboxRom a, seq := .done })
  ∧ (∀ a : Byte, RejectedWhileBusy (.sbox a) ∧ encode (.sbox a) = 0#16 ++ a ++ 0x01#8)
  ∧ (∀ v : Word, opField v = 0x1#4 → ridxField v ≠ 0#4 ∨ bField v ≠ 0#2 ∨ rsvField v ≠ 0#14 →
      decodeWord v = .illegal .rsvdBits)
  ∧ sboxRom 0x00#8 = 0x63#8 ∧ sboxRom 0x53#8 = 0xED#8 ∧ sboxRom 0xFF#8 = 0x16#8

/-- 41_substitution.md R103, R105: SUBBYTES replaces every byte of STATE by its S-box entry, lane by lane. -/
def Obligations.SubbytesSubstitutesEveryByte : Prop :=
  (∀ s : State, s.busy = false →
    ∃ b : Block, exec .subbytes s = .next { s with state := b, seq := .done }
      ∧ ∀ i : Fin 16, b[i] = sboxRom s.state[i] ∧ b[i] ≠ s.state[i])
  ∧ RejectedWhileBusy .subbytes ∧ encode .subbytes = 0x00000002#32 ∧ OnlyOpcodeBits 0x2#4

/-- 42_row_shift.md R120, R121: SHIFTROWS rotates row r left by r. -/
def Obligations.ShiftrowsRotatesRows : Prop :=
  (∀ s : State, s.busy = false →
    ∃ b : Block, exec .shiftrows s = .next { s with state := b, seq := .done }
      ∧ ∀ r c c' : Fin 4, c'.val = (c.val + r.val) % 4 → b[idx r c] = s.state[idx r c'])
  ∧ RejectedWhileBusy .shiftrows ∧ encode .shiftrows = 0x00000003#32 ∧ OnlyOpcodeBits 0x3#4

/-- 43_gf_column_mix.md R144, R145: GFMUL puts the product of A and the coefficient B in RESULT. -/
def Obligations.GfmulMultipliesByCoefficient : Prop :=
  (∀ (a : Byte) (s : State), s.busy = false →
    exec (.gfmul a 0#2) s = .next { s with result := 0x00#8, seq := .done }
    ∧ exec (.gfmul a 1#2) s = .next { s with result := a, seq := .done }
    ∧ exec (.gfmul a 2#2) s = .next { s with result := mul2Rom a, seq := .done }
    ∧ exec (.gfmul a 3#2) s = .next { s with result := mul3Rom a, seq := .done })
  ∧ (∀ (a : Byte) (b : BitVec 2), RejectedWhileBusy (.gfmul a b) ∧ encode (.gfmul a b) = 0#14 ++ b ++ a ++ 0x04#8)
  ∧ (∀ v : Word, opField v = 0x4#4 → ridxField v ≠ 0#4 ∨ rsvField v ≠ 0#14 → decodeWord v = .illegal .rsvdBits)

/-- 43_gf_column_mix.md R147, R148: MIXCOLUMNS, written out for each column. -/
def Obligations.MixcolumnsMixesEachColumn : Prop :=
  (∀ s : State, s.busy = false →
    ∃ b : Block, exec .mixcolumns s = .next { s with state := b, seq := .done }
      ∧ ∀ (c : Fin 4) (a0 a1 a2 a3 : Byte), a0 = s.state[idx 0 c] → a1 = s.state[idx 1 c] → a2 = s.state[idx 2 c] →
          a3 = s.state[idx 3 c] →
          b[idx 0 c] = mul2Rom a0 ^^^ mul3Rom a1 ^^^ a2 ^^^ a3
          ∧ b[idx 1 c] = a0 ^^^ mul2Rom a1 ^^^ mul3Rom a2 ^^^ a3
          ∧ b[idx 2 c] = a0 ^^^ a1 ^^^ mul2Rom a2 ^^^ mul3Rom a3
          ∧ b[idx 3 c] = mul3Rom a0 ^^^ a1 ^^^ a2 ^^^ mul2Rom a3)
  ∧ RejectedWhileBusy .mixcolumns ∧ encode .mixcolumns = 0x00000005#32 ∧ OnlyOpcodeBits 0x5#4

/-- 44_key_schedule.md R173, R174: KEYSTEP j replaces KEY by the next round key, chaining through the new words. -/
def Obligations.KeystepAdvancesKey : Prop :=
  (∀ (j : BitVec 4) (r : Fin 10) (s : State), s.busy = false → j.toNat = r.val →
    ∃ k : Block, exec (.keystep j) s = .next { s with key := k, seq := .done }
      ∧ pack k 0 = pack s.key 0 ^^^
          ((sboxRom s.key[13] ^^^ rcRom r) ++ sboxRom s.key[14] ++ sboxRom s.key[15] ++ sboxRom s.key[12])
      ∧ pack k 1 = pack k 0 ^^^ pack s.key 1
      ∧ pack k 2 = pack k 1 ^^^ pack s.key 2
      ∧ pack k 3 = pack k 2 ^^^ pack s.key 3)
  ∧ (∀ (j : BitVec 4) (s : State), s.busy = false → 9 < j.toNat → exec (.keystep j) s = .next (s.cmdError .badRidx))
  ∧ (∀ j : BitVec 4, RejectedWhileBusy (.keystep j) ∧ encode (.keystep j) = 0#24 ++ j ++ 0x6#4)
  ∧ (∀ v : Word, opField v = 0x6#4 → aField v ≠ 0#8 ∨ bField v ≠ 0#2 ∨ rsvField v ≠ 0#14 →
      decodeWord v = .illegal .rsvdBits)

/-- 45_round_sequencer.md R190, R191: ADDKEY XORs KEY into STATE; done twice it restores STATE. -/
def Obligations.AddkeyXorsKeyIntoState : Prop :=
  (∀ s : State, s.busy = false →
    ∃ b : Block, exec .addkey s = .next { s with state := b, seq := .done } ∧ ∀ i : Fin 16, b[i] = s.state[i] ^^^ s.key[i])
  ∧ (∀ s : State, s.busy = false → execList [.addkey, .addkey] s = .next { s with seq := .done })
  ∧ RejectedWhileBusy .addkey ∧ encode .addkey = 0x00000007#32 ∧ OnlyOpcodeBits 0x7#4

/-- 45_round_sequencer.md R192, R193: ROUND j is its stages issued in order, and touches only STATE, KEY and SEQ. -/
def Obligations.RoundIsItsStages : Prop :=
  (∀ (j : BitVec 4) (s : State), s.busy = false → j.toNat ≤ 9 →
    ∃ b k : Block, exec (.round j) s = .next { s with state := b, key := k, seq := .done }
      ∧ execList (roundStages j) s = .next { s with state := b, key := k, seq := .done })
  ∧ (∀ (j : BitVec 4) (s : State), s.busy = false → 9 < j.toNat → exec (.round j) s = .next (s.cmdError .badRidx))
  ∧ (∀ j : BitVec 4, RejectedWhileBusy (.round j) ∧ encode (.round j) = 0#24 ++ j ++ 0x8#4)
  ∧ (∀ v : Word, opField v = 0x8#4 → aField v ≠ 0#8 ∨ bField v ≠ 0#2 ∨ rsvField v ≠ 0#14 →
      decodeWord v = .illegal .rsvdBits)

/-- 45_round_sequencer.md R195, at acceptance: ENCRYPT only starts the sequencer. -/
def Obligations.EncryptIsAccepted : Prop :=
  (∀ s : State, s.busy = false → exec .encrypt s = .next { s with seq := .initial, rnd := 0#4 })
  ∧ RejectedWhileBusy .encrypt ∧ encode .encrypt = 0x00000009#32 ∧ OnlyOpcodeBits 0x9#4

/-- 30_encoding.md R92: every accepted primitive command completes at once and leaves RND, ERR and ERRCODE. -/
def Obligations.PrimitiveCompletesAtOnce : Prop :=
  (∀ (i : Instr) (s : State), i.wf = true → i ≠ .encrypt → s.busy = false →
    ∃ t, exec i s = .next t ∧ t.seq = .done ∧ t.busy = false ∧ t.isDone = true
      ∧ t.rnd = s.rnd ∧ t.err = s.err ∧ t.errCode = s.errCode)
  ∧ ∀ s : State, s.busy = false → ∃ t, exec .encrypt s = .next t ∧ t.seq = .initial ∧ t.busy = true ∧ t.isDone = false

/-- 10_state.md R36, 30_encoding.md R88: which commands may change which register, and that nothing else changes. -/
def Obligations.CommandsWriteOnlyTheirRegisters : Prop :=
  ∀ (i : Instr) (s t : State), exec i s = .next t →
    (t.state ≠ s.state → i = .subbytes ∨ i = .shiftrows ∨ i = .mixcolumns ∨ i = .addkey ∨ ∃ j, i = .round j)
    ∧ (t.key ≠ s.key → ∃ j, i = .keystep j ∨ i = .round j)
    ∧ (t.result ≠ s.result → (∃ a, i = .sbox a) ∨ ∃ a b, i = .gfmul a b)
    ∧ (t.rnd ≠ s.rnd → i = .encrypt)
    ∧ (t.err ≠ s.err ∨ t.errCode ≠ s.errCode → s.busy = true ∨ i.wf = false)
    ∧ (s.busy = true ∨ i.wf = false →
        t.state = s.state ∧ t.key = s.key ∧ t.result = s.result ∧ t.seq = s.seq ∧ t.rnd = s.rnd)
    ∧ t.draws = s.draws ∧ t.host = s.host ∧ t.turns = s.turns ∧ t.answer = s.answer

/-! ### The sequencer -/

/-- 45_round_sequencer.md R196: the core step in INITIAL. -/
def Obligations.InitialStepWhitens : Prop :=
  ∀ s : State, s.seq = .initial →
    ∃ b : Block, coreStep s = .next { s with state := b, seq := .round, rnd := 0#4 }
      ∧ ∀ i : Fin 16, b[i] = s.state[i] ^^^ s.key[i]

/-- 45_round_sequencer.md R197: the core step in ROUND does what ROUND RND does to STATE and KEY, counts, and ends at 9. -/
def Obligations.RoundStepRunsRoundOfCounter : Prop :=
  ∀ s : State, s.seq = .round → s.rnd.toNat ≤ 9 →
    ∃ b k : Block,
      exec (.round s.rnd) { s with seq := .done } = .next { s with state := b, key := k, seq := .done }
      ∧ coreStep s = .next
          { s with state := b, key := k, rnd := s.rnd + 1#4, seq := if s.rnd = 9#4 then .done else .round }

/-- 45_round_sequencer.md R198: a turn of the core, listed or (where none is listed and BUSY = 1) the fair one, is its core
step; while BUSY = 1 it moves SEQ or RND, and in IDLE and DONE it changes nothing. -/
def Obligations.CoreWaitsUnlessBusy : Prop :=
  (∀ (s : State) (ts : List Turn), s.turns = .core :: ts → step s = coreStep { s with turns := ts })
  ∧ (∀ s : State, s.turns = [] → s.busy = true → step s = coreStep s)
  ∧ (∀ s : State, s.busy = true → s.Inv → ∃ t, coreStep s = .next t ∧ (t.seq ≠ s.seq ∨ t.rnd ≠ s.rnd))
  ∧ ∀ (s : State) (ts : List Turn), s.turns = .core :: ts → s.busy = false →
      coreStep s = .next s ∧ step s = .next { s with turns := ts }

/-- 45_round_sequencer.md R199: an accepted ENCRYPT ends after exactly 11 core steps with the AES-128 ciphertext in STATE,
RK[10] in KEY, RND = 10 and SEQ = DONE; nothing else changes. -/
def Obligations.EncryptEndsAfterElevenSteps : Prop :=
  ∀ s : State, s.busy = false →
    ∃ s0, exec .encrypt s = .next s0
      ∧ (∀ n, n < 11 → ∃ t, coreSteps n s0 = .next t ∧ t.busy = true)
      ∧ coreSteps 11 s0 = .next
          { s with state := aes128 s.state s.key, key := roundKey s.key 10, seq := .done, rnd := 10#4 }

/-- 45_round_sequencer.md R199, R201, 20_memory.md R62: however host accesses and core steps interleave, every step of the
whole machine but a reset keeps an ENCRYPT on its way from its acceptance: KEY = RK[RND], and on completion STATE is the
ciphertext. -/
def Obligations.InterleavedEncryptStaysOnCourse : Prop :=
  (∀ s : State, s.busy = false → ∃ t, exec .encrypt s = .next t ∧ t.busy = true ∧ t.EncryptOf s.state s.key)
  ∧ ∀ (b k : Block) (s t : State), s.busy = true → s.EncryptOf b k → s.turns.head? ≠ some .reset →
    step s = .next t → t.EncryptOf b k

/-- 45_round_sequencer.md R202: ENCRYPT and the primitive sequence ADDKEY, ROUND 0, ..., ROUND 9 agree on STATE and KEY, and
on everything but RND. -/
def Obligations.EncryptAgreesWithPrimitives : Prop :=
  ∀ s : State, s.busy = false →
    ∃ s0 t u, exec .encrypt s = .next s0 ∧ coreSteps 11 s0 = .next t
      ∧ execList [.addkey, .round 0#4, .round 1#4, .round 2#4, .round 3#4, .round 4#4, .round 5#4, .round 6#4, .round 7#4,
          .round 8#4, .round 9#4] s = .next u
      ∧ u.state = t.state ∧ u.key = t.key ∧ t = { u with rnd := 10#4 } ∧ u.rnd = s.rnd

/-- 45_round_sequencer.md R200, R198: the sequencer moves only as the table says, each move on its event: a reset; an
accepted CTRL write of ENCRYPT, or of another command, which the step performs; or a turn of the busy core, which is its core
step. On no such event SEQ and RND stay. -/
def Obligations.SequencerMovesOnlyAsTabled : Prop :=
  ∀ s t : State, step s = .next t →
    (s.turns.head? = some .reset ∧ t.seq = .idle ∧ t.rnd = 0#4)
    ∨ (s.busy = false ∧ (∃ u, s.takesCommand .encrypt u ∧ exec .encrypt { u with answer := .written } = .next t)
        ∧ t.seq = .initial ∧ t.rnd = 0#4)
    ∨ (s.busy = false ∧ (∃ i u, i ≠ .encrypt ∧ s.takesCommand i u ∧ exec i { u with answer := .written } = .next t)
        ∧ t.seq = .done ∧ t.rnd = s.rnd)
    ∨ (s.coreMoves ∧ coreStep { s with turns := s.turns.tail } = .next t
        ∧ ((s.seq = .initial ∧ t.seq = .round ∧ t.rnd = 0#4)
          ∨ (s.seq = .round ∧ s.rnd.toNat ≤ 8 ∧ t.seq = .round ∧ t.rnd = s.rnd + 1#4)
          ∨ (s.seq = .round ∧ s.rnd = 9#4 ∧ t.seq = .done ∧ t.rnd = 10#4)))
    ∨ (s.turns.head? ≠ some .reset ∧ (s.coreMoves → s.busy = false)
        ∧ (s.busy = false → ∀ i u, ¬ s.takesCommand i u)
        ∧ t.seq = s.seq ∧ t.rnd = s.rnd)

/-- 45_round_sequencer.md R203, 70_reset_and_hazards.md R269: the control flow does not depend on STATE, KEY or RESULT: two
machines that differ only there move alike, to states that again differ only there. -/
def Obligations.ControlIsIndependentOfData : Prop :=
  ∀ s s' t : State, s.SameControl s' → step s = .next t → ∃ t', step s' = .next t' ∧ t.SameControl t'

/-! ### The register window -/

/-- 20_memory.md R54: a read of STATEk or KEYk while BUSY = 0 returns the packed column. -/
def Obligations.DataReadReturnsColumn : Prop :=
  ∀ (s t : State) (k : Fin 4), s.busy = false →
    (s.hostTakes = some (.access (BitVec.ofNat 6 (0x10 + 4 * k.val)) (.read 4), t) →
      ∃ w : Word, step s = .next { t with answer := .data w }
        ∧ w = s.state[idx 0 k] ++ s.state[idx 1 k] ++ s.state[idx 2 k] ++ s.state[idx 3 k])
    ∧ (s.hostTakes = some (.access (BitVec.ofNat 6 (0x20 + 4 * k.val)) (.read 4), t) →
      ∃ w : Word, step s = .next { t with answer := .data w }
        ∧ w = s.key[idx 0 k] ++ s.key[idx 1 k] ++ s.key[idx 2 k] ++ s.key[idx 3 k])

/-- 20_memory.md R55: a read of STATEk or KEYk while BUSY = 1 returns a draw and changes no register. The draw's number is the
model's choice (log entry 2). -/
def Obligations.DataReadWhileBusyIsDraw : Prop :=
  ∀ (s t : State) (k : Fin 4), s.busy = true →
    s.hostTakes = some (.access (BitVec.ofNat 6 (0x10 + 4 * k.val)) (.read 4), t)
      ∨ s.hostTakes = some (.access (BitVec.ofNat 6 (0x20 + 4 * k.val)) (.read 4), t) →
    step s = .next { t with answer := .data (Config.any32 s.draws), draws := s.draws + 1 }

/-- 20_memory.md R53, R56: a write of STATEk or KEYk while BUSY = 0 writes the four bytes of column k, big-endian, and
nothing else. -/
def Obligations.DataWriteReplacesColumn : Prop :=
  ∀ (s t : State) (k : Fin 4) (v : Word), s.busy = false →
    (s.hostTakes = some (.access (BitVec.ofNat 6 (0x10 + 4 * k.val)) (.write 4 v), t) →
      ∃ b : Block, step s = .next { t with state := b, answer := .written }
        ∧ ∀ r c : Fin 4, b[idx r c] = if c = k then v.extractLsb' (24 - 8 * r.val) 8 else s.state[idx r c])
    ∧ (s.hostTakes = some (.access (BitVec.ofNat 6 (0x20 + 4 * k.val)) (.write 4 v), t) →
      ∃ b : Block, step s = .next { t with key := b, answer := .written }
        ∧ ∀ r c : Fin 4, b[idx r c] = if c = k then v.extractLsb' (24 - 8 * r.val) 8 else s.key[idx r c])

/-- 20_memory.md R57: a write of STATEk or KEYk while BUSY = 1 is rejected with BUSY_DATA. -/
def Obligations.DataWriteWhileBusyRejected : Prop :=
  ∀ (s t : State) (k : Fin 4) (v : Word), s.busy = true →
    s.hostTakes = some (.access (BitVec.ofNat 6 (0x10 + 4 * k.val)) (.write 4 v), t)
      ∨ s.hostTakes = some (.access (BitVec.ofNat 6 (0x20 + 4 * k.val)) (.write 4 v), t) →
    step s = .next (({ t with answer := .written } : State).cmdError .busyData)

/-- 20_memory.md R53, R54, R56: reading a column after writing it gives the word written, and the other columns read as
before. -/
def Obligations.ColumnReadsBackAsWritten : Prop :=
  ∀ (s : State) (k c : Fin 4) (v : Word), s.busy = false →
    ∃ t u, writeReg (.state k) v s = .next t ∧ writeReg (.key k) v s = .next u
      ∧ (readReg (.state c) t).1 = (if c = k then v else (readReg (.state c) s).1)
      ∧ (readReg (.key c) t).1 = (readReg (.key c) s).1
      ∧ (readReg (.key c) u).1 = (if c = k then v else (readReg (.key c) s).1)
      ∧ (readReg (.state c) u).1 = (readReg (.state c) s).1

/-- 20_memory.md R59: STATUS, field by field as read, and its one writable bit; accepted whether or not BUSY = 1. -/
def Obligations.StatusReadsAndClears : Prop :=
  (∀ s t : State, s.hostTakes = some (.access 0x04#6 (.read 4), t) →
    ∃ w : Word, step s = .next { t with answer := .data w }
      ∧ w.extractLsb' 0 1 = BitVec.ofBool s.busy ∧ w.extractLsb' 1 1 = BitVec.ofBool s.isDone
      ∧ w.extractLsb' 2 1 = BitVec.ofBool s.err ∧ w.extractLsb' 3 1 = 0#1 ∧ w.extractLsb' 4 3 = s.errCode
      ∧ w.extractLsb' 7 1 = 0#1 ∧ w.extractLsb' 8 2 = s.seq.code ∧ w.extractLsb' 10 2 = 0#2
      ∧ w.extractLsb' 12 4 = s.rnd ∧ w.extractLsb' 16 16 = 0#16)
  ∧ (∀ (s t : State) (v : Word), s.hostTakes = some (.access 0x04#6 (.write 4 v), t) →
    (v.getLsbD 2 = true → step s = .next { t with err := false, errCode := 0#3, answer := .written })
    ∧ (v.getLsbD 2 = false → step s = .next { t with answer := .written }))

/-- 20_memory.md R60: RESULT reads zero-extended, busy or not, ignores writes, and no core step writes it. -/
def Obligations.ResultReadsAndIgnoresWrites : Prop :=
  ∀ (s t : State),
    (s.hostTakes = some (.access 0x08#6 (.read 4), t) → step s = .next { t with answer := .data (0#24 ++ s.result) })
    ∧ (∀ v, s.hostTakes = some (.access 0x08#6 (.write 4 v), t) → step s = .next { t with answer := .written })
    ∧ (coreStep s = .next t → t.result = s.result)

/-- 20_memory.md R58: CTRL reads 0, and a word written there goes to the dispatch and is not kept. -/
def Obligations.CtrlReadsZeroAndKeepsNothing : Prop :=
  ∀ (s t : State),
    (s.hostTakes = some (.access 0x00#6 (.read 4), t) → step s = .next { t with answer := .data 0x00000000#32 })
    ∧ ∀ v, s.hostTakes = some (.access 0x00#6 (.write 4 v), t) → step s = ctrlWrite v { t with answer := .written }

/-- 20_memory.md R51, R52, 60_exceptions.md R233: exactly the 4-byte accesses at the eleven mapped offsets are legal; every
other access is a bus error, which faults the host program. -/
def Obligations.IllegalAccessIsBusError : Prop :=
  ∀ (s t : State) (off : BitVec 6) (x : Xfer), s.hostTakes = some (.access off x, t) →
    if x.width = 4 ∧ off ∈ [0x00#6, 0x04#6, 0x08#6, 0x10#6, 0x14#6, 0x18#6, 0x1C#6, 0x20#6, 0x24#6, 0x28#6, 0x2C#6]
    then ∃ u, step s = .next u
    else ∃ d, step s = .fault (.busError off x d)

/-- 20_memory.md R50: the window lies at BASE_ADDR, a multiple of 0x40, and no address outside it is decoded. -/
def Obligations.WindowLiesAtBaseAddress : Prop :=
  Config.baseAddr % 0x40 = 0
  ∧ ∀ (s t : State) (addr : Nat) (x : Xfer), s.hostTakes = some (.bus addr x, t) →
    (∀ off : BitVec 6, addr = Config.baseAddr + off.toNat → step s = accessWindow off x t)
    ∧ (addr < Config.baseAddr ∨ Config.baseAddr + 0x40 ≤ addr → step s = .next { t with answer := .silent })

/-- 30_encoding.md R91, 70_reset_and_hazards.md R268: with no turn listed, a WAIT loop ends, after at most 12 steps. -/
def Obligations.WaitLoopEnds : Prop :=
  ∀ (s : State) (rest : List HostOp), s.Inv → s.turns = [] → s.host = .wait :: rest →
    ∃ (n : Nat) (t : State), n ≤ 12 ∧ Host.Core.run Sys2Proof.core n s = .next t ∧ t.host = rest ∧ t.busy = false
      ∧ t.answer = .data t.statusWord

/-! ### The tables and the stages -/

/-- 41_substitution.md R104: the S-box is a permutation of the bytes. -/
def Obligations.SboxIsPermutation : Prop :=
  ∀ y : Byte, ∃ x : Byte, sboxRom x = y ∧ ∀ x' : Byte, sboxRom x' = y → x' = x

/-- 41_substitution.md R100: each entry is `Affine(Inv(x))`, with `Inv(0) = 0`. -/
def Obligations.SboxIsAffineOfInverse : Prop :=
  sboxRom 0x00#8 = affine 0x00#8
  ∧ ∀ x : Byte, x ≠ 0x00#8 → ∃ y : Byte, fieldMul x y = 0x01#8 ∧ sboxRom x = affine y

/-- 43_gf_column_mix.md R142, R143: the two tables are what the rules derive them to be. -/
def Obligations.MultiplyTablesAreDerived : Prop :=
  ∀ a : Byte, mul2Rom a = (a <<< 1) ^^^ (if a.getLsbD 7 then 0x1B#8 else 0x00#8) ∧ mul3Rom a = mul2Rom a ^^^ a

/-- 43_gf_column_mix.md R149: coefficients distribute over XOR, and the tables give the full field product. -/
def Obligations.GfMulIsFieldProduct : Prop :=
  (∀ (a : Byte) (c1 c2 : BitVec 2), gfMul a c1 ^^^ gfMul a c2 = gfMul a (c1 ^^^ c2))
  ∧ (∀ a : Byte, gfMul a 2#2 = xtime a)
  ∧ (∀ (a : Byte) (c : BitVec 2), gfMul a c = fieldMul a (c.setWidth 8))

/-- 44_key_schedule.md R170: the ten round constants double in the field, from 1. -/
def Obligations.RoundConstantsDouble : Prop :=
  [0, 1, 2, 3, 4, 5, 6, 7, 8, 9].map rcRom
      = [0x01#8, 0x02#8, 0x04#8, 0x08#8, 0x10#8, 0x20#8, 0x40#8, 0x80#8, 0x1B#8, 0x36#8]
  ∧ rcRom 0 = 0x01#8 ∧ ∀ i j : Fin 10, j.val = i.val + 1 → rcRom j = xtime (rcRom i)

/-- 42_row_shift.md R122: four SHIFTROWS restore every STATE; two do not. -/
def Obligations.ShiftrowsHasPeriodFour : Prop :=
  (∀ s : State, s.busy = false →
    execList [.shiftrows, .shiftrows, .shiftrows, .shiftrows] s = .next { s with seq := .done })
  ∧ (∃ b : Block, shiftRows (shiftRows b) ≠ b)
  ∧ shiftRows (shiftRows
        #v[0x00, 0x01, 0x02, 0x03, 0x04, 0x05, 0x06, 0x07, 0x08, 0x09, 0x0a, 0x0b, 0x0c, 0x0d, 0x0e, 0x0f])
      = #v[0x00, 0x09, 0x02, 0x0b, 0x04, 0x0d, 0x06, 0x0f, 0x08, 0x01, 0x0a, 0x03, 0x0c, 0x05, 0x0e, 0x07]

/-- 43_gf_column_mix.md R148, R150, R151: an output column depends on its own input column alone, and a column of four equal
bytes is a fixed point. -/
def Obligations.ColumnMixIsColumnLocal : Prop :=
  (∀ (a b : Block) (c : Fin 4), (∀ r : Fin 4, a[idx r c] = b[idx r c]) →
    ∀ r : Fin 4, (mixColumns a)[idx r c] = (mixColumns b)[idx r c])
  ∧ (∀ (a : Block) (c : Fin 4) (x : Byte), (∀ r : Fin 4, a[idx r c] = x) → ∀ r : Fin 4, (mixColumns a)[idx r c] = x)

/-- 95_test_vectors.md L1-1: the known answer of the source, ciphertext and last round key, under ENCRYPT. -/
def Obligations.KnownAnswerIsReached : Prop :=
  ∃ s0 t : State,
    exec .encrypt { State.reset with
      state := #v[0x00, 0x11, 0x22, 0x33, 0x44, 0x55, 0x66, 0x77, 0x88, 0x99, 0xaa, 0xbb, 0xcc, 0xdd, 0xee, 0xff]
      key := #v[0x00, 0x01, 0x02, 0x03, 0x04, 0x05, 0x06, 0x07, 0x08, 0x09, 0x0a, 0x0b, 0x0c, 0x0d, 0x0e, 0x0f] } = .next s0
    ∧ coreSteps 11 s0 = .next t
    ∧ t.state = #v[0x69, 0xc4, 0xe0, 0xd8, 0x6a, 0x7b, 0x04, 0x30, 0xd8, 0xcd, 0xb7, 0x80, 0x70, 0xb4, 0xc5, 0x5a]
    ∧ t.key = #v[0x13, 0x11, 0x1d, 0x7f, 0xe3, 0x94, 0x4a, 0x17, 0xf3, 0x07, 0xa7, 0x8b, 0x4d, 0x2b, 0x30, 0xc5]
    ∧ t.statusWord = 0x0000A302#32

/-! ### Invariants and safety -/

/-- 10_state.md R26, R27, R29: the invariant holds after reset. -/
def Obligations.InvariantHoldsAtReset : Prop := State.reset.Inv

/-- 10_state.md R26, R27, R29, 60_exceptions.md R231: every step keeps the invariant: RND stays in the range of the sequencer's
state (never 11 to 15), ERRCODE is 0 exactly when ERR is clear, and 6 and 7 are never produced. -/
def Obligations.InvariantKeptByEveryStep : Prop := ∀ s t : State, s.Inv → step s = .next t → t.Inv

/-- 60_exceptions.md R230, 45_round_sequencer.md R199: from a good state, a host that makes only legal accesses never stops
the machine, and both conditions go on to hold: no command and no core step faults. -/
def Obligations.SafeHostNeverStops : Prop :=
  ∀ s : State, s.Inv → s.hostSafe = true → ∃ t, step s = .next t ∧ t.Inv ∧ t.hostSafe = true
end

