-- ==== Sys2Proof/Laws/Block.lean ====
section
/-! SUPPORT. Blocks, their matrix view, and the packing of columns into words. -/

namespace Sys2Proof.Machine

@[simp] theorem getElem_blockOf (f : Fin 16 → Byte) (n : Nat) (h : n < 16) : (blockOf f)[n] = f ⟨n, h⟩ := by
  simp [blockOf]

theorem blockOf_apply (f : Fin 16 → Byte) (i : Fin 16) : (blockOf f)[i] = f i := by simp

theorem block_ext {a b : Block} (h : ∀ i : Fin 16, a[i] = b[i]) : a = b :=
  Vector.ext fun i hi => by simpa using h ⟨i, hi⟩

@[simp] theorem rowOf_idx (r c : Fin 4) : rowOf (idx r c) = r := by
  revert r c; decide

@[simp] theorem colOf_idx (r c : Fin 4) : colOf (idx r c) = c := by
  revert r c; decide

@[simp] theorem idx_rowOf_colOf (i : Fin 16) : idx (rowOf i) (colOf i) = i := by
  revert i; decide

/-- A property of every matrix place holds of every byte index. -/
theorem forall_idx {p : Fin 16 → Prop} (h : ∀ r c, p (idx r c)) (i : Fin 16) : p i := by
  have := h (rowOf i) (colOf i)
  rwa [idx_rowOf_colOf] at this

/-- A byte of a packed word is the byte that was packed there. -/
theorem byteOf_word4 (b0 b1 b2 b3 : Byte) :
    byteOf (word4 b0 b1 b2 b3) 0 = b0 ∧ byteOf (word4 b0 b1 b2 b3) 1 = b1
      ∧ byteOf (word4 b0 b1 b2 b3) 2 = b2 ∧ byteOf (word4 b0 b1 b2 b3) 3 = b3 := by
  refine ⟨?_, ?_, ?_, ?_⟩ <;>
  · apply BitVec.eq_of_getLsbD_eq
    intro i hi
    simp only [byteOf, word4, BitVec.getLsbD_extractLsb', BitVec.getLsbD_append, hi, decide_true, Bool.true_and]
    interval_cases i <;> rfl

/-- The word of its own four bytes. -/
theorem word4_byteOf (w : Word) : word4 (byteOf w 0) (byteOf w 1) (byteOf w 2) (byteOf w 3) = w := by
  apply BitVec.eq_of_getLsbD_eq
  intro i hi
  simp only [byteOf, word4, BitVec.getLsbD_extractLsb', BitVec.getLsbD_append]
  interval_cases i <;> rfl

@[simp] theorem byteOf_pack (X : Block) (c r : Fin 4) : byteOf (pack X c) r = X[idx r c] := by
  have h := byteOf_word4 X[idx 0 c] X[idx 1 c] X[idx 2 c] X[idx 3 c]
  match r with
  | 0 => exact h.1
  | 1 => exact h.2.1
  | 2 => exact h.2.2.1
  | 3 => exact h.2.2.2

/-- Two words with the same bytes are equal. -/
theorem word_ext {v w : Word} (h : ∀ r, byteOf v r = byteOf w r) : v = w := by
  rw [← word4_byteOf v, ← word4_byteOf w, h 0, h 1, h 2, h 3]

theorem unpack_apply (X : Block) (k : Fin 4) (v : Word) (i : Fin 16) :
    (unpack X k v)[i] = if colOf i = k then byteOf v (rowOf i) else X[i] := blockOf_apply _ i

theorem blockOfWords_apply (n : Fin 4 → Word) (i : Fin 16) :
    (blockOfWords n)[i] = byteOf (n (colOf i)) (rowOf i) := blockOf_apply _ i

/-- Exclusive or acts on each byte of a word. -/
theorem byteOf_xor (v w : Word) (r : Fin 4) : byteOf (v ^^^ w) r = byteOf v r ^^^ byteOf w r := by
  apply BitVec.eq_of_getLsbD_eq
  intro i hi
  simp [byteOf, hi]

/-- Round indices 0 to 9 and no others. -/
theorem roundIndex_eq_some {j : BitVec 4} {r : Fin 10} : roundIndex j = some r ↔ j.toNat = r.val := by
  unfold roundIndex
  split
  · constructor
    · intro h; cases h; rfl
    · intro h; congr 1; exact Fin.ext h
  · constructor
    · intro h; cases h
    · intro h; omega

theorem roundIndex_eq_none {j : BitVec 4} : roundIndex j = none ↔ 9 < j.toNat := by
  unfold roundIndex
  split <;> simp <;> omega

end Sys2Proof.Machine
end

