-- ==== Sys2Proof/Laws/State.lean ====
section
/-! SUPPORT. What each update of the state does to each field: one lemma per field per update, so that no proof unfolds a
record update. -/

namespace Sys2Proof.Machine

section
variable (s : State)

/-! `State.complete` -/

@[simp] theorem State.complete_state : s.complete.state = s.state := by cases s; rfl
@[simp] theorem State.complete_key : s.complete.key = s.key := by cases s; rfl
@[simp] theorem State.complete_result : s.complete.result = s.result := by cases s; rfl
@[simp] theorem State.complete_seq : s.complete.seq = .done := rfl
@[simp] theorem State.complete_rnd : s.complete.rnd = s.rnd := by cases s; rfl
@[simp] theorem State.complete_err : s.complete.err = s.err := by cases s; rfl
@[simp] theorem State.complete_errCode : s.complete.errCode = s.errCode := by cases s; rfl
@[simp] theorem State.complete_draws : s.complete.draws = s.draws := by cases s; rfl
@[simp] theorem State.complete_host : s.complete.host = s.host := by cases s; rfl
@[simp] theorem State.complete_turns : s.complete.turns = s.turns := by cases s; rfl
@[simp] theorem State.complete_answer : s.complete.answer = s.answer := by cases s; rfl
@[simp] theorem State.complete_busy : s.complete.busy = false := rfl
@[simp] theorem State.complete_isDone : s.complete.isDone = true := rfl

/-! `State.cmdError` -/

@[simp] theorem State.cmdError_state (e : CmdErr) : (s.cmdError e).state = s.state := by cases s; rfl
@[simp] theorem State.cmdError_key (e : CmdErr) : (s.cmdError e).key = s.key := by cases s; rfl
@[simp] theorem State.cmdError_result (e : CmdErr) : (s.cmdError e).result = s.result := by cases s; rfl
@[simp] theorem State.cmdError_seq (e : CmdErr) : (s.cmdError e).seq = s.seq := by cases s; rfl
@[simp] theorem State.cmdError_rnd (e : CmdErr) : (s.cmdError e).rnd = s.rnd := by cases s; rfl
@[simp] theorem State.cmdError_err (e : CmdErr) : (s.cmdError e).err = true := rfl
@[simp] theorem State.cmdError_errCode (e : CmdErr) : (s.cmdError e).errCode = if s.err then s.errCode else errCodeOf e := rfl
@[simp] theorem State.cmdError_draws (e : CmdErr) : (s.cmdError e).draws = s.draws := by cases s; rfl
@[simp] theorem State.cmdError_host (e : CmdErr) : (s.cmdError e).host = s.host := by cases s; rfl
@[simp] theorem State.cmdError_turns (e : CmdErr) : (s.cmdError e).turns = s.turns := by cases s; rfl
@[simp] theorem State.cmdError_answer (e : CmdErr) : (s.cmdError e).answer = s.answer := by cases s; rfl
@[simp] theorem State.cmdError_busy (e : CmdErr) : (s.cmdError e).busy = s.busy := by cases s; rfl
@[simp] theorem State.cmdError_isDone (e : CmdErr) : (s.cmdError e).isDone = s.isDone := by cases s; rfl

/-! `State.clearError` -/

@[simp] theorem State.clearError_state : s.clearError.state = s.state := by cases s; rfl
@[simp] theorem State.clearError_key : s.clearError.key = s.key := by cases s; rfl
@[simp] theorem State.clearError_result : s.clearError.result = s.result := by cases s; rfl
@[simp] theorem State.clearError_seq : s.clearError.seq = s.seq := by cases s; rfl
@[simp] theorem State.clearError_rnd : s.clearError.rnd = s.rnd := by cases s; rfl
@[simp] theorem State.clearError_err : s.clearError.err = false := rfl
@[simp] theorem State.clearError_errCode : s.clearError.errCode = 0#3 := rfl
@[simp] theorem State.clearError_draws : s.clearError.draws = s.draws := by cases s; rfl
@[simp] theorem State.clearError_host : s.clearError.host = s.host := by cases s; rfl
@[simp] theorem State.clearError_turns : s.clearError.turns = s.turns := by cases s; rfl
@[simp] theorem State.clearError_answer : s.clearError.answer = s.answer := by cases s; rfl
@[simp] theorem State.clearError_busy : s.clearError.busy = s.busy := by cases s; rfl
@[simp] theorem State.clearError_isDone : s.clearError.isDone = s.isDone := by cases s; rfl

/-! `State.applyReset` -/

@[simp] theorem State.applyReset_state : s.applyReset.state = drawBlock s.draws := rfl
@[simp] theorem State.applyReset_key : s.applyReset.key = drawBlock (s.draws + 16) := rfl
@[simp] theorem State.applyReset_result : s.applyReset.result = Config.any8 (s.draws + 32) := rfl
@[simp] theorem State.applyReset_seq : s.applyReset.seq = .idle := rfl
@[simp] theorem State.applyReset_rnd : s.applyReset.rnd = 0#4 := rfl
@[simp] theorem State.applyReset_err : s.applyReset.err = false := rfl
@[simp] theorem State.applyReset_errCode : s.applyReset.errCode = 0#3 := rfl
@[simp] theorem State.applyReset_draws : s.applyReset.draws = s.draws + 33 := rfl
@[simp] theorem State.applyReset_host : s.applyReset.host = s.host := by cases s; rfl
@[simp] theorem State.applyReset_turns : s.applyReset.turns = s.turns := by cases s; rfl
@[simp] theorem State.applyReset_answer : s.applyReset.answer = s.answer := by cases s; rfl
@[simp] theorem State.applyReset_busy : s.applyReset.busy = false := rfl
@[simp] theorem State.applyReset_isDone : s.applyReset.isDone = false := rfl

/-! `State.answered` -/

@[simp] theorem State.answered_state (a : Answer) : (s.answered a).state = s.state := by cases s; rfl
@[simp] theorem State.answered_key (a : Answer) : (s.answered a).key = s.key := by cases s; rfl
@[simp] theorem State.answered_result (a : Answer) : (s.answered a).result = s.result := by cases s; rfl
@[simp] theorem State.answered_seq (a : Answer) : (s.answered a).seq = s.seq := by cases s; rfl
@[simp] theorem State.answered_rnd (a : Answer) : (s.answered a).rnd = s.rnd := by cases s; rfl
@[simp] theorem State.answered_err (a : Answer) : (s.answered a).err = s.err := by cases s; rfl
@[simp] theorem State.answered_errCode (a : Answer) : (s.answered a).errCode = s.errCode := by cases s; rfl
@[simp] theorem State.answered_draws (a : Answer) : (s.answered a).draws = s.draws := by cases s; rfl
@[simp] theorem State.answered_host (a : Answer) : (s.answered a).host = s.host := by cases s; rfl
@[simp] theorem State.answered_turns (a : Answer) : (s.answered a).turns = s.turns := by cases s; rfl
@[simp] theorem State.answered_answer (a : Answer) : (s.answered a).answer = a := rfl
@[simp] theorem State.answered_busy (a : Answer) : (s.answered a).busy = s.busy := by cases s; rfl
@[simp] theorem State.answered_isDone (a : Answer) : (s.answered a).isDone = s.isDone := by cases s; rfl

/-! `State.drewOne` -/

@[simp] theorem State.drewOne_state : s.drewOne.state = s.state := by cases s; rfl
@[simp] theorem State.drewOne_key : s.drewOne.key = s.key := by cases s; rfl
@[simp] theorem State.drewOne_result : s.drewOne.result = s.result := by cases s; rfl
@[simp] theorem State.drewOne_seq : s.drewOne.seq = s.seq := by cases s; rfl
@[simp] theorem State.drewOne_rnd : s.drewOne.rnd = s.rnd := by cases s; rfl
@[simp] theorem State.drewOne_err : s.drewOne.err = s.err := by cases s; rfl
@[simp] theorem State.drewOne_errCode : s.drewOne.errCode = s.errCode := by cases s; rfl
@[simp] theorem State.drewOne_draws : s.drewOne.draws = s.draws + 1 := rfl
@[simp] theorem State.drewOne_host : s.drewOne.host = s.host := by cases s; rfl
@[simp] theorem State.drewOne_turns : s.drewOne.turns = s.turns := by cases s; rfl
@[simp] theorem State.drewOne_answer : s.drewOne.answer = s.answer := by cases s; rfl
@[simp] theorem State.drewOne_busy : s.drewOne.busy = s.busy := by cases s; rfl
@[simp] theorem State.drewOne_isDone : s.drewOne.isDone = s.isDone := by cases s; rfl

/-! `State.writeState` -/

@[simp] theorem State.writeState_state (k : Fin 4) (v : Word) : (s.writeState k v).state = unpack s.state k v := rfl
@[simp] theorem State.writeState_key (k : Fin 4) (v : Word) : (s.writeState k v).key = s.key := by cases s; rfl
@[simp] theorem State.writeState_result (k : Fin 4) (v : Word) : (s.writeState k v).result = s.result := by cases s; rfl
@[simp] theorem State.writeState_seq (k : Fin 4) (v : Word) : (s.writeState k v).seq = s.seq := by cases s; rfl
@[simp] theorem State.writeState_rnd (k : Fin 4) (v : Word) : (s.writeState k v).rnd = s.rnd := by cases s; rfl
@[simp] theorem State.writeState_err (k : Fin 4) (v : Word) : (s.writeState k v).err = s.err := by cases s; rfl
@[simp] theorem State.writeState_errCode (k : Fin 4) (v : Word) : (s.writeState k v).errCode = s.errCode := by cases s; rfl
@[simp] theorem State.writeState_draws (k : Fin 4) (v : Word) : (s.writeState k v).draws = s.draws := by cases s; rfl
@[simp] theorem State.writeState_host (k : Fin 4) (v : Word) : (s.writeState k v).host = s.host := by cases s; rfl
@[simp] theorem State.writeState_turns (k : Fin 4) (v : Word) : (s.writeState k v).turns = s.turns := by cases s; rfl
@[simp] theorem State.writeState_answer (k : Fin 4) (v : Word) : (s.writeState k v).answer = s.answer := by cases s; rfl
@[simp] theorem State.writeState_busy (k : Fin 4) (v : Word) : (s.writeState k v).busy = s.busy := by cases s; rfl
@[simp] theorem State.writeState_isDone (k : Fin 4) (v : Word) : (s.writeState k v).isDone = s.isDone := by cases s; rfl

/-! `State.writeKey` -/

@[simp] theorem State.writeKey_state (k : Fin 4) (v : Word) : (s.writeKey k v).state = s.state := by cases s; rfl
@[simp] theorem State.writeKey_key (k : Fin 4) (v : Word) : (s.writeKey k v).key = unpack s.key k v := rfl
@[simp] theorem State.writeKey_result (k : Fin 4) (v : Word) : (s.writeKey k v).result = s.result := by cases s; rfl
@[simp] theorem State.writeKey_seq (k : Fin 4) (v : Word) : (s.writeKey k v).seq = s.seq := by cases s; rfl
@[simp] theorem State.writeKey_rnd (k : Fin 4) (v : Word) : (s.writeKey k v).rnd = s.rnd := by cases s; rfl
@[simp] theorem State.writeKey_err (k : Fin 4) (v : Word) : (s.writeKey k v).err = s.err := by cases s; rfl
@[simp] theorem State.writeKey_errCode (k : Fin 4) (v : Word) : (s.writeKey k v).errCode = s.errCode := by cases s; rfl
@[simp] theorem State.writeKey_draws (k : Fin 4) (v : Word) : (s.writeKey k v).draws = s.draws := by cases s; rfl
@[simp] theorem State.writeKey_host (k : Fin 4) (v : Word) : (s.writeKey k v).host = s.host := by cases s; rfl
@[simp] theorem State.writeKey_turns (k : Fin 4) (v : Word) : (s.writeKey k v).turns = s.turns := by cases s; rfl
@[simp] theorem State.writeKey_answer (k : Fin 4) (v : Word) : (s.writeKey k v).answer = s.answer := by cases s; rfl
@[simp] theorem State.writeKey_busy (k : Fin 4) (v : Word) : (s.writeKey k v).busy = s.busy := by cases s; rfl
@[simp] theorem State.writeKey_isDone (k : Fin 4) (v : Word) : (s.writeKey k v).isDone = s.isDone := by cases s; rfl

/-! `State.subBytes` -/

@[simp] theorem State.subBytes_state : s.subBytes.state = Machine.subBytes s.state := rfl
@[simp] theorem State.subBytes_key : s.subBytes.key = s.key := by cases s; rfl
@[simp] theorem State.subBytes_result : s.subBytes.result = s.result := by cases s; rfl
@[simp] theorem State.subBytes_seq : s.subBytes.seq = s.seq := by cases s; rfl
@[simp] theorem State.subBytes_rnd : s.subBytes.rnd = s.rnd := by cases s; rfl
@[simp] theorem State.subBytes_err : s.subBytes.err = s.err := by cases s; rfl
@[simp] theorem State.subBytes_errCode : s.subBytes.errCode = s.errCode := by cases s; rfl
@[simp] theorem State.subBytes_draws : s.subBytes.draws = s.draws := by cases s; rfl
@[simp] theorem State.subBytes_host : s.subBytes.host = s.host := by cases s; rfl
@[simp] theorem State.subBytes_turns : s.subBytes.turns = s.turns := by cases s; rfl
@[simp] theorem State.subBytes_answer : s.subBytes.answer = s.answer := by cases s; rfl
@[simp] theorem State.subBytes_busy : s.subBytes.busy = s.busy := by cases s; rfl
@[simp] theorem State.subBytes_isDone : s.subBytes.isDone = s.isDone := by cases s; rfl

/-! `State.shiftRows` -/

@[simp] theorem State.shiftRows_state : s.shiftRows.state = Machine.shiftRows s.state := rfl
@[simp] theorem State.shiftRows_key : s.shiftRows.key = s.key := by cases s; rfl
@[simp] theorem State.shiftRows_result : s.shiftRows.result = s.result := by cases s; rfl
@[simp] theorem State.shiftRows_seq : s.shiftRows.seq = s.seq := by cases s; rfl
@[simp] theorem State.shiftRows_rnd : s.shiftRows.rnd = s.rnd := by cases s; rfl
@[simp] theorem State.shiftRows_err : s.shiftRows.err = s.err := by cases s; rfl
@[simp] theorem State.shiftRows_errCode : s.shiftRows.errCode = s.errCode := by cases s; rfl
@[simp] theorem State.shiftRows_draws : s.shiftRows.draws = s.draws := by cases s; rfl
@[simp] theorem State.shiftRows_host : s.shiftRows.host = s.host := by cases s; rfl
@[simp] theorem State.shiftRows_turns : s.shiftRows.turns = s.turns := by cases s; rfl
@[simp] theorem State.shiftRows_answer : s.shiftRows.answer = s.answer := by cases s; rfl
@[simp] theorem State.shiftRows_busy : s.shiftRows.busy = s.busy := by cases s; rfl
@[simp] theorem State.shiftRows_isDone : s.shiftRows.isDone = s.isDone := by cases s; rfl

/-! `State.mixColumns` -/

@[simp] theorem State.mixColumns_state : s.mixColumns.state = Machine.mixColumns s.state := rfl
@[simp] theorem State.mixColumns_key : s.mixColumns.key = s.key := by cases s; rfl
@[simp] theorem State.mixColumns_result : s.mixColumns.result = s.result := by cases s; rfl
@[simp] theorem State.mixColumns_seq : s.mixColumns.seq = s.seq := by cases s; rfl
@[simp] theorem State.mixColumns_rnd : s.mixColumns.rnd = s.rnd := by cases s; rfl
@[simp] theorem State.mixColumns_err : s.mixColumns.err = s.err := by cases s; rfl
@[simp] theorem State.mixColumns_errCode : s.mixColumns.errCode = s.errCode := by cases s; rfl
@[simp] theorem State.mixColumns_draws : s.mixColumns.draws = s.draws := by cases s; rfl
@[simp] theorem State.mixColumns_host : s.mixColumns.host = s.host := by cases s; rfl
@[simp] theorem State.mixColumns_turns : s.mixColumns.turns = s.turns := by cases s; rfl
@[simp] theorem State.mixColumns_answer : s.mixColumns.answer = s.answer := by cases s; rfl
@[simp] theorem State.mixColumns_busy : s.mixColumns.busy = s.busy := by cases s; rfl
@[simp] theorem State.mixColumns_isDone : s.mixColumns.isDone = s.isDone := by cases s; rfl

/-! `State.keyStep` -/

@[simp] theorem State.keyStep_state (j : Fin 10) : (s.keyStep j).state = s.state := by cases s; rfl
@[simp] theorem State.keyStep_key (j : Fin 10) : (s.keyStep j).key = Machine.keyStep s.key j := rfl
@[simp] theorem State.keyStep_result (j : Fin 10) : (s.keyStep j).result = s.result := by cases s; rfl
@[simp] theorem State.keyStep_seq (j : Fin 10) : (s.keyStep j).seq = s.seq := by cases s; rfl
@[simp] theorem State.keyStep_rnd (j : Fin 10) : (s.keyStep j).rnd = s.rnd := by cases s; rfl
@[simp] theorem State.keyStep_err (j : Fin 10) : (s.keyStep j).err = s.err := by cases s; rfl
@[simp] theorem State.keyStep_errCode (j : Fin 10) : (s.keyStep j).errCode = s.errCode := by cases s; rfl
@[simp] theorem State.keyStep_draws (j : Fin 10) : (s.keyStep j).draws = s.draws := by cases s; rfl
@[simp] theorem State.keyStep_host (j : Fin 10) : (s.keyStep j).host = s.host := by cases s; rfl
@[simp] theorem State.keyStep_turns (j : Fin 10) : (s.keyStep j).turns = s.turns := by cases s; rfl
@[simp] theorem State.keyStep_answer (j : Fin 10) : (s.keyStep j).answer = s.answer := by cases s; rfl
@[simp] theorem State.keyStep_busy (j : Fin 10) : (s.keyStep j).busy = s.busy := by cases s; rfl
@[simp] theorem State.keyStep_isDone (j : Fin 10) : (s.keyStep j).isDone = s.isDone := by cases s; rfl

/-! `State.addRoundKey` -/

@[simp] theorem State.addRoundKey_state : s.addRoundKey.state = Machine.addRoundKey s.state s.key := rfl
@[simp] theorem State.addRoundKey_key : s.addRoundKey.key = s.key := by cases s; rfl
@[simp] theorem State.addRoundKey_result : s.addRoundKey.result = s.result := by cases s; rfl
@[simp] theorem State.addRoundKey_seq : s.addRoundKey.seq = s.seq := by cases s; rfl
@[simp] theorem State.addRoundKey_rnd : s.addRoundKey.rnd = s.rnd := by cases s; rfl
@[simp] theorem State.addRoundKey_err : s.addRoundKey.err = s.err := by cases s; rfl
@[simp] theorem State.addRoundKey_errCode : s.addRoundKey.errCode = s.errCode := by cases s; rfl
@[simp] theorem State.addRoundKey_draws : s.addRoundKey.draws = s.draws := by cases s; rfl
@[simp] theorem State.addRoundKey_host : s.addRoundKey.host = s.host := by cases s; rfl
@[simp] theorem State.addRoundKey_turns : s.addRoundKey.turns = s.turns := by cases s; rfl
@[simp] theorem State.addRoundKey_answer : s.addRoundKey.answer = s.answer := by cases s; rfl
@[simp] theorem State.addRoundKey_busy : s.addRoundKey.busy = s.busy := by cases s; rfl
@[simp] theorem State.addRoundKey_isDone : s.addRoundKey.isDone = s.isDone := by cases s; rfl

/-! `State.startEncrypt` -/

@[simp] theorem State.startEncrypt_state : s.startEncrypt.state = s.state := by cases s; rfl
@[simp] theorem State.startEncrypt_key : s.startEncrypt.key = s.key := by cases s; rfl
@[simp] theorem State.startEncrypt_result : s.startEncrypt.result = s.result := by cases s; rfl
@[simp] theorem State.startEncrypt_seq : s.startEncrypt.seq = .initial := rfl
@[simp] theorem State.startEncrypt_rnd : s.startEncrypt.rnd = 0#4 := rfl
@[simp] theorem State.startEncrypt_err : s.startEncrypt.err = s.err := by cases s; rfl
@[simp] theorem State.startEncrypt_errCode : s.startEncrypt.errCode = s.errCode := by cases s; rfl
@[simp] theorem State.startEncrypt_draws : s.startEncrypt.draws = s.draws := by cases s; rfl
@[simp] theorem State.startEncrypt_host : s.startEncrypt.host = s.host := by cases s; rfl
@[simp] theorem State.startEncrypt_turns : s.startEncrypt.turns = s.turns := by cases s; rfl
@[simp] theorem State.startEncrypt_answer : s.startEncrypt.answer = s.answer := by cases s; rfl
@[simp] theorem State.startEncrypt_busy : s.startEncrypt.busy = true := rfl
@[simp] theorem State.startEncrypt_isDone : s.startEncrypt.isDone = false := rfl

/-! `State.mixUnlessLast`, which branches on the round index -/

theorem State.mixUnlessLast_of_ne {j : Fin 10} (h : j ≠ 9) : s.mixUnlessLast j = s.mixColumns := if_pos h

theorem State.mixUnlessLast_last : s.mixUnlessLast 9 = s := rfl

@[simp] theorem State.mixUnlessLast_state (j : Fin 10) :
    (s.mixUnlessLast j).state = if j ≠ 9 then Machine.mixColumns s.state else s.state := by
  unfold State.mixUnlessLast
  split <;> rfl

@[simp] theorem State.mixUnlessLast_key (j : Fin 10) : (s.mixUnlessLast j).key = s.key := by
  unfold State.mixUnlessLast
  split <;> rfl

@[simp] theorem State.mixUnlessLast_result (j : Fin 10) : (s.mixUnlessLast j).result = s.result := by
  unfold State.mixUnlessLast
  split <;> rfl

@[simp] theorem State.mixUnlessLast_seq (j : Fin 10) : (s.mixUnlessLast j).seq = s.seq := by
  unfold State.mixUnlessLast
  split <;> rfl

@[simp] theorem State.mixUnlessLast_rnd (j : Fin 10) : (s.mixUnlessLast j).rnd = s.rnd := by
  unfold State.mixUnlessLast
  split <;> rfl

@[simp] theorem State.mixUnlessLast_err (j : Fin 10) : (s.mixUnlessLast j).err = s.err := by
  unfold State.mixUnlessLast
  split <;> rfl

@[simp] theorem State.mixUnlessLast_errCode (j : Fin 10) : (s.mixUnlessLast j).errCode = s.errCode := by
  unfold State.mixUnlessLast
  split <;> rfl

@[simp] theorem State.mixUnlessLast_draws (j : Fin 10) : (s.mixUnlessLast j).draws = s.draws := by
  unfold State.mixUnlessLast
  split <;> rfl

@[simp] theorem State.mixUnlessLast_host (j : Fin 10) : (s.mixUnlessLast j).host = s.host := by
  unfold State.mixUnlessLast
  split <;> rfl

@[simp] theorem State.mixUnlessLast_turns (j : Fin 10) : (s.mixUnlessLast j).turns = s.turns := by
  unfold State.mixUnlessLast
  split <;> rfl

@[simp] theorem State.mixUnlessLast_answer (j : Fin 10) : (s.mixUnlessLast j).answer = s.answer := by
  unfold State.mixUnlessLast
  split <;> rfl

/-! `State.applyRound` -/

/-- The block that round `j` leaves in STATE. -/
theorem State.applyRound_state (j : Fin 10) :
    (s.applyRound j).state =
      Machine.addRoundKey
        (if j ≠ 9 then Machine.mixColumns (Machine.shiftRows (Machine.subBytes s.state))
          else Machine.shiftRows (Machine.subBytes s.state))
        (Machine.keyStep s.key j) := by
  simp only [State.applyRound, State.addRoundKey_state, State.keyStep_state, State.keyStep_key,
    State.mixUnlessLast_state, State.mixUnlessLast_key, State.shiftRows_state, State.shiftRows_key,
    State.subBytes_state, State.subBytes_key]

@[simp] theorem State.applyRound_key (j : Fin 10) : (s.applyRound j).key = Machine.keyStep s.key j := by
  simp only [State.applyRound, State.addRoundKey_key, State.keyStep_key, State.mixUnlessLast_key, State.shiftRows_key,
    State.subBytes_key]

@[simp] theorem State.applyRound_result (j : Fin 10) : (s.applyRound j).result = s.result := by
  simp only [State.applyRound, State.addRoundKey_result, State.keyStep_result, State.mixUnlessLast_result, State.shiftRows_result,
    State.subBytes_result]

@[simp] theorem State.applyRound_seq (j : Fin 10) : (s.applyRound j).seq = s.seq := by
  simp only [State.applyRound, State.addRoundKey_seq, State.keyStep_seq, State.mixUnlessLast_seq, State.shiftRows_seq,
    State.subBytes_seq]

@[simp] theorem State.applyRound_rnd (j : Fin 10) : (s.applyRound j).rnd = s.rnd := by
  simp only [State.applyRound, State.addRoundKey_rnd, State.keyStep_rnd, State.mixUnlessLast_rnd, State.shiftRows_rnd,
    State.subBytes_rnd]

@[simp] theorem State.applyRound_err (j : Fin 10) : (s.applyRound j).err = s.err := by
  simp only [State.applyRound, State.addRoundKey_err, State.keyStep_err, State.mixUnlessLast_err, State.shiftRows_err,
    State.subBytes_err]

@[simp] theorem State.applyRound_errCode (j : Fin 10) : (s.applyRound j).errCode = s.errCode := by
  simp only [State.applyRound, State.addRoundKey_errCode, State.keyStep_errCode, State.mixUnlessLast_errCode, State.shiftRows_errCode,
    State.subBytes_errCode]

@[simp] theorem State.applyRound_draws (j : Fin 10) : (s.applyRound j).draws = s.draws := by
  simp only [State.applyRound, State.addRoundKey_draws, State.keyStep_draws, State.mixUnlessLast_draws, State.shiftRows_draws,
    State.subBytes_draws]

@[simp] theorem State.applyRound_host (j : Fin 10) : (s.applyRound j).host = s.host := by
  simp only [State.applyRound, State.addRoundKey_host, State.keyStep_host, State.mixUnlessLast_host, State.shiftRows_host,
    State.subBytes_host]

@[simp] theorem State.applyRound_turns (j : Fin 10) : (s.applyRound j).turns = s.turns := by
  simp only [State.applyRound, State.addRoundKey_turns, State.keyStep_turns, State.mixUnlessLast_turns, State.shiftRows_turns,
    State.subBytes_turns]

@[simp] theorem State.applyRound_answer (j : Fin 10) : (s.applyRound j).answer = s.answer := by
  simp only [State.applyRound, State.addRoundKey_answer, State.keyStep_answer, State.mixUnlessLast_answer, State.shiftRows_answer,
    State.subBytes_answer]

/-! `State.initialStep` and `State.roundStep` -/

@[simp] theorem State.initialStep_state : s.initialStep.state = Machine.addRoundKey s.state s.key := rfl
@[simp] theorem State.initialStep_key : s.initialStep.key = s.key := by cases s; rfl
@[simp] theorem State.initialStep_result : s.initialStep.result = s.result := by cases s; rfl
@[simp] theorem State.initialStep_seq : s.initialStep.seq = .round := rfl
@[simp] theorem State.initialStep_rnd : s.initialStep.rnd = 0#4 := rfl
@[simp] theorem State.initialStep_err : s.initialStep.err = s.err := by cases s; rfl
@[simp] theorem State.initialStep_errCode : s.initialStep.errCode = s.errCode := by cases s; rfl
@[simp] theorem State.initialStep_draws : s.initialStep.draws = s.draws := by cases s; rfl
@[simp] theorem State.initialStep_host : s.initialStep.host = s.host := by cases s; rfl
@[simp] theorem State.initialStep_turns : s.initialStep.turns = s.turns := by cases s; rfl
@[simp] theorem State.initialStep_answer : s.initialStep.answer = s.answer := by cases s; rfl

@[simp] theorem State.roundStep_state (j : Fin 10) : (s.roundStep j).state = (s.applyRound j).state := rfl
@[simp] theorem State.roundStep_key (j : Fin 10) : (s.roundStep j).key = Machine.keyStep s.key j := State.applyRound_key s j
@[simp] theorem State.roundStep_result (j : Fin 10) : (s.roundStep j).result = s.result := State.applyRound_result s j
@[simp] theorem State.roundStep_seq (j : Fin 10) : (s.roundStep j).seq = if j = 9 then .done else .round := rfl
@[simp] theorem State.roundStep_rnd (j : Fin 10) : (s.roundStep j).rnd = s.rnd + 1#4 := rfl
@[simp] theorem State.roundStep_err (j : Fin 10) : (s.roundStep j).err = s.err := State.applyRound_err s j
@[simp] theorem State.roundStep_errCode (j : Fin 10) : (s.roundStep j).errCode = s.errCode := State.applyRound_errCode s j
@[simp] theorem State.roundStep_draws (j : Fin 10) : (s.roundStep j).draws = s.draws := State.applyRound_draws s j
@[simp] theorem State.roundStep_host (j : Fin 10) : (s.roundStep j).host = s.host := State.applyRound_host s j
@[simp] theorem State.roundStep_turns (j : Fin 10) : (s.roundStep j).turns = s.turns := State.applyRound_turns s j
@[simp] theorem State.roundStep_answer (j : Fin 10) : (s.roundStep j).answer = s.answer := State.applyRound_answer s j

end

/-- The state after reset is what one reset of any state with no draw taken gives, for the spec's seven registers. -/
theorem State.reset_eq_applyReset (s : State) (h : s.draws = 0) :
    s.applyReset.state = State.reset.state ∧ s.applyReset.key = State.reset.key
      ∧ s.applyReset.result = State.reset.result ∧ s.applyReset.seq = State.reset.seq
      ∧ s.applyReset.rnd = State.reset.rnd ∧ s.applyReset.err = State.reset.err
      ∧ s.applyReset.errCode = State.reset.errCode ∧ s.applyReset.draws = State.reset.draws := by
  simp [State.reset, h]

end Sys2Proof.Machine
end

