-- ==== Sys2Proof/Laws/Ops.lean ====
section
/-! SUPPORT. Everything each shared operation can do, said once: the command guards, the accesses, the core's and the
host's turns. -/

namespace Sys2Proof.Machine

/-! The guards of a command -/

theorem whenNotBusy_of_busy {s : State} (h : s.busy = true) (p : State → Out) :
    whenNotBusy s p = .next (s.cmdError .busyCmd) := by
  simp [whenNotBusy, h]

theorem whenNotBusy_of_not_busy {s : State} (h : s.busy = false) (p : State → Out) : whenNotBusy s p = p s := by
  simp [whenNotBusy, h]

theorem withRoundIndex_of_le (s : State) {j : BitVec 4} (h : j.toNat ≤ 9) (p : Fin 10 → State → Out) :
    withRoundIndex s j p = p ⟨j.toNat, by omega⟩ s := by
  have hr : roundIndex j = some ⟨j.toNat, by omega⟩ := roundIndex_eq_some.2 rfl
  simp only [withRoundIndex, hr]

theorem withRoundIndex_of_gt (s : State) {j : BitVec 4} (h : 9 < j.toNat) (p : Fin 10 → State → Out) :
    withRoundIndex s j p = .next (s.cmdError .badRidx) := by
  simp only [withRoundIndex, roundIndex_eq_none.2 h]

/-- A guarded command answers a next state if what it performs does. -/
theorem whenNotBusy_total {s : State} {p : State → Out} (h : ∃ t, p s = .next t) : ∃ t, whenNotBusy s p = .next t := by
  cases hb : s.busy
  · rwa [whenNotBusy_of_not_busy hb]
  · exact ⟨_, whenNotBusy_of_busy hb p⟩

theorem withRoundIndex_total (s : State) (j : BitVec 4) {p : Fin 10 → State → Out} (h : ∀ j, ∃ t, p j s = .next t) :
    ∃ t, withRoundIndex s j p = .next t := by
  rcases Nat.lt_or_ge 9 j.toNat with hj | hj
  · exact ⟨_, withRoundIndex_of_gt s hj p⟩
  · rw [withRoundIndex_of_le s hj]
    exact h _

/-- No command stops the machine: every one answers a next state, in every state. -/
theorem exec_total (i : Instr) (s : State) : ∃ t, exec i s = .next t := by
  cases i with
  | nop =>
    simp only [exec, execNop]
    exact whenNotBusy_total ⟨_, rfl⟩
  | sbox a =>
    simp only [exec, execSbox]
    exact whenNotBusy_total ⟨_, rfl⟩
  | subbytes =>
    simp only [exec, execSubbytes]
    exact whenNotBusy_total ⟨_, rfl⟩
  | shiftrows =>
    simp only [exec, execShiftrows]
    exact whenNotBusy_total ⟨_, rfl⟩
  | gfmul a b =>
    simp only [exec, execGfmul]
    exact whenNotBusy_total ⟨_, rfl⟩
  | mixcolumns =>
    simp only [exec, execMixcolumns]
    exact whenNotBusy_total ⟨_, rfl⟩
  | keystep j =>
    simp only [exec, execKeystep]
    exact whenNotBusy_total (withRoundIndex_total s j fun _ => ⟨_, rfl⟩)
  | addkey =>
    simp only [exec, execAddkey]
    exact whenNotBusy_total ⟨_, rfl⟩
  | round j =>
    simp only [exec, execRound]
    exact whenNotBusy_total (withRoundIndex_total s j fun _ => ⟨_, rfl⟩)
  | encrypt =>
    simp only [exec, execEncrypt]
    exact whenNotBusy_total ⟨_, rfl⟩

/-! The registers of the window -/

/-- A read changes nothing but the draw counter. -/
theorem readReg_state (r : Reg) (s : State) : (readReg r s).2 = s ∨ (readReg r s).2 = s.drewOne := by
  cases r with
  | ctrl => exact .inl rfl
  | status => exact .inl rfl
  | result => exact .inl rfl
  | state k => cases hb : s.busy <;> simp [readReg, readColumn, hb]
  | key k => cases hb : s.busy <;> simp [readReg, readColumn, hb]

theorem readReg_not_busy {s : State} (h : s.busy = false) (r : Reg) : (readReg r s).2 = s := by
  cases r <;> simp [readReg, readColumn, h]

/-- What a CTRL write can do. -/
theorem ctrlWrite_cases (v : Word) (s : State) :
    (s.busy = true ∧ ctrlWrite v s = .next (s.cmdError .busyCmd)) ∨
    (s.busy = false ∧ ∃ e, decodeWord v = .illegal e ∧ ctrlWrite v s = .next (s.cmdError e)) ∨
    (s.busy = false ∧ ∃ i, decodeWord v = .legal i ∧ ctrlWrite v s = exec i s) := by
  unfold ctrlWrite
  cases hb : s.busy
  · cases hd : decodeWord v with
    | legal i => exact .inr (.inr ⟨rfl, i, rfl, rfl⟩)
    | illegal e => exact .inr (.inl ⟨rfl, e, rfl, rfl⟩)
  · exact .inl ⟨rfl, rfl⟩

/-- Every write of a register answers a next state. -/
theorem writeReg_total (r : Reg) (v : Word) (s : State) : ∃ t, writeReg r v s = .next t := by
  cases r with
  | ctrl =>
    show ∃ t, ctrlWrite v s = .next t
    rcases ctrlWrite_cases v s with ⟨-, h⟩ | ⟨-, e, -, h⟩ | ⟨-, i, -, h⟩
    · exact ⟨_, h⟩
    · exact ⟨_, h⟩
    · rw [h]; exact exec_total i s
  | status => exact ⟨_, rfl⟩
  | result => exact ⟨_, rfl⟩
  | state k => exact ⟨_, rfl⟩
  | key k => exact ⟨_, rfl⟩

theorem accessReg_total (r : Reg) (x : Xfer) (s : State) : ∃ t, accessReg r x s = .next t := by
  cases x with
  | read n => exact ⟨_, rfl⟩
  | write n v => exact writeReg_total r v _

/-- An access answers a next state exactly when it is legal; otherwise it is a bus error. -/
theorem accessWindow_cases (off : BitVec 6) (x : Xfer) (s : State) :
    (legalReg off x = none ∧ accessWindow off x s = .fault (.busError off x (busErrorData x s))) ∨
    (∃ r t, legalReg off x = some r ∧ accessWindow off x s = accessReg r x s ∧ accessReg r x s = .next t) := by
  unfold accessWindow
  cases h : legalReg off x with
  | none => exact .inl ⟨rfl, rfl⟩
  | some r =>
    obtain ⟨t, ht⟩ := accessReg_total r x s
    exact .inr ⟨r, t, rfl, rfl, ht⟩

/-! The turns -/

/-- What one turn of the core can do when it answers a next state. -/
theorem coreStep_cases {s t : State} (h : coreStep s = .next t) :
    (s.busy = false ∧ t = s) ∨ (s.seq = .initial ∧ t = s.initialStep) ∨
    (s.seq = .round ∧ ∃ j, roundIndex s.rnd = some j ∧ t = s.roundStep j) := by
  unfold coreStep at h
  cases hq : s.seq with
  | idle => rw [hq] at h; injection h with h; exact .inl ⟨by simp [State.busy, hq, Seq.busy], h.symm⟩
  | done => rw [hq] at h; injection h with h; exact .inl ⟨by simp [State.busy, hq, Seq.busy], h.symm⟩
  | initial => rw [hq] at h; injection h with h; exact .inr (.inl ⟨rfl, h.symm⟩)
  | round =>
    rw [hq] at h
    cases hj : roundIndex s.rnd with
    | none => simp [hj] at h
    | some j =>
      simp only [hj] at h
      injection h with h
      exact .inr (.inr ⟨rfl, j, rfl, h.symm⟩)

/-- What one turn of the host can do when it answers a next state. -/
theorem hostStep_cases {s t : State} (h : hostStep s = .next t) :
    (s.host = [] ∧ t = s) ∨
    (∃ rest, s.host = .wait :: rest ∧ t = waitTurn rest s) ∨
    (∃ addr x rest, s.host = .bus addr x :: rest ∧ windowOffset addr = none ∧
      t = ({ s with host := rest } : State).answered .silent) ∨
    (∃ r x rest, accessReg r x { s with host := rest } = .next t ∧
      ((∃ off, s.host = .access off x :: rest ∧ legalReg off x = some r) ∨
        ∃ addr off, s.host = .bus addr x :: rest ∧ windowOffset addr = some off ∧ legalReg off x = some r)) := by
  unfold hostStep at h
  cases hh : s.host with
  | nil => rw [hh] at h; injection h with h; exact .inl ⟨rfl, h.symm⟩
  | cons op rest =>
    rw [hh] at h
    cases op with
    | access off x =>
      rcases accessWindow_cases off x { s with host := rest } with ⟨-, hf⟩ | ⟨r, u, hr, ha, hu⟩
      · simp only [hf] at h; cases h
      · simp only [ha] at h
        exact .inr (.inr (.inr ⟨r, x, rest, h, .inl ⟨off, rfl, hr⟩⟩))
    | bus addr x =>
      simp only [accessBus] at h
      cases hw : windowOffset addr with
      | none =>
        simp only [hw] at h
        injection h with h
        exact .inr (.inr (.inl ⟨addr, x, rest, rfl, hw, h.symm⟩))
      | some off =>
        simp only [hw] at h
        rcases accessWindow_cases off x { s with host := rest } with ⟨-, hf⟩ | ⟨r, u, hr, ha, hu⟩
        · simp only [hf] at h; cases h
        · simp only [ha] at h
          exact .inr (.inr (.inr ⟨r, x, rest, h, .inr ⟨addr, off, rfl, hw, hr⟩⟩))
    | wait =>
      injection h with h
      exact .inr (.inl ⟨rest, rfl, h.symm⟩)

end Sys2Proof.Machine
end

