-- ==== Sys2Proof/Laws/Exec.lean ====
section
/-! SUPPORT. What a command can do, said once for all ten, and how commands issued one after the other unfold. -/

namespace Sys2Proof.Machine

/-- A round index as a number below 10, from its 4-bit field. -/
theorem withRoundIndex_of_eq (s : State) {j : BitVec 4} {r : Fin 10} (h : j.toNat = r.val) (p : Fin 10 → State → Out) :
    withRoundIndex s j p = p r s := by
  have hr : (⟨j.toNat, by omega⟩ : Fin 10) = r := Fin.ext h
  rw [withRoundIndex_of_le s (by omega), hr]

/-- What the well-formed command `i` makes of a state that is not busy. -/
inductive Performs (s : State) : Instr → State → Prop where
  | nop : Performs s .nop s.complete
  | sbox (a : Byte) : Performs s (.sbox a) ({ s with result := sub a } : State).complete
  | subbytes : Performs s .subbytes s.subBytes.complete
  | shiftrows : Performs s .shiftrows s.shiftRows.complete
  | gfmul (a : Byte) (b : BitVec 2) : Performs s (.gfmul a b) ({ s with result := gfMul a b } : State).complete
  | mixcolumns : Performs s .mixcolumns s.mixColumns.complete
  | keystep (j : BitVec 4) (r : Fin 10) (h : j.toNat = r.val) : Performs s (.keystep j) (s.keyStep r).complete
  | addkey : Performs s .addkey s.addRoundKey.complete
  | round (j : BitVec 4) (r : Fin 10) (h : j.toNat = r.val) : Performs s (.round j) (s.applyRound r).complete
  | encrypt : Performs s .encrypt s.startEncrypt

/-- A well-formed command, not busy: it answers what it performs. -/
theorem exec_of_performs {s t : State} {i : Instr} (hb : s.busy = false) (h : Performs s i t) : exec i s = .next t := by
  cases h with
  | nop => simp only [exec, execNop]; exact whenNotBusy_of_not_busy hb _
  | sbox a => simp only [exec, execSbox]; exact whenNotBusy_of_not_busy hb _
  | subbytes => simp only [exec, execSubbytes]; exact whenNotBusy_of_not_busy hb _
  | shiftrows => simp only [exec, execShiftrows]; exact whenNotBusy_of_not_busy hb _
  | gfmul a b => simp only [exec, execGfmul]; exact whenNotBusy_of_not_busy hb _
  | mixcolumns => simp only [exec, execMixcolumns]; exact whenNotBusy_of_not_busy hb _
  | keystep j r h =>
    simp only [exec, execKeystep]
    rw [whenNotBusy_of_not_busy hb, withRoundIndex_of_eq s h]
  | addkey => simp only [exec, execAddkey]; exact whenNotBusy_of_not_busy hb _
  | round j r h =>
    simp only [exec, execRound]
    rw [whenNotBusy_of_not_busy hb, withRoundIndex_of_eq s h]
  | encrypt => simp only [exec, execEncrypt]; exact whenNotBusy_of_not_busy hb _

/-- Every well-formed command performs something. -/
theorem performs_of_wf (s : State) {i : Instr} (h : i.wf = true) : ∃ t, Performs s i t := by
  cases i with
  | nop => exact ⟨_, .nop⟩
  | sbox a => exact ⟨_, .sbox a⟩
  | subbytes => exact ⟨_, .subbytes⟩
  | shiftrows => exact ⟨_, .shiftrows⟩
  | gfmul a b => exact ⟨_, .gfmul a b⟩
  | mixcolumns => exact ⟨_, .mixcolumns⟩
  | keystep j =>
    have hj : j.toNat ≤ 9 := by simpa [Instr.wf] using h
    exact ⟨_, .keystep j ⟨j.toNat, by omega⟩ rfl⟩
  | addkey => exact ⟨_, .addkey⟩
  | round j =>
    have hj : j.toNat ≤ 9 := by simpa [Instr.wf] using h
    exact ⟨_, .round j ⟨j.toNat, by omega⟩ rfl⟩
  | encrypt => exact ⟨_, .encrypt⟩

/-- Commands issued one after the other: the first one's next state is where the rest begins. -/
theorem execList_cons (is : List Instr) {i : Instr} {s t : State} (h : exec i s = .next t) :
    execList (i :: is) s = execList is t := by
  simp only [execList, h]

end Sys2Proof.Machine
end

