-- ==== Sys2Proof/Laws/Step.lean ====
section
/-! SUPPORT. One step is one turn of the host, of the core, or of the reset input. -/

namespace Sys2Proof.Machine

theorem step_host_turn {s : State} {ts : List Turn} (h : s.turns = .host :: ts) :
    step s = hostStep { s with turns := ts } := by simp [step, h]

theorem step_core_turn {s : State} {ts : List Turn} (h : s.turns = .core :: ts) :
    step s = coreStep { s with turns := ts } := by simp [step, h]

theorem step_reset_turn {s : State} {ts : List Turn} (h : s.turns = .reset :: ts) :
    step s = .next ({ s with turns := ts } : State).applyReset := by simp [step, h]

theorem step_no_turn_busy {s : State} (h : s.turns = []) (hb : s.busy = true) : step s = coreStep s := by
  simp [step, h, hb]

theorem step_no_turn_not_busy {s : State} (h : s.turns = []) (hb : s.busy = false) : step s = hostStep s := by
  simp [step, h, hb]

/-- Every step is a reset, or a turn of the core or of the host from the same state but for the turns still listed. -/
theorem step_cases (s : State) :
    ∃ ts, (s.turns.head? = some .reset ∧ step s = .next ({ s with turns := ts } : State).applyReset) ∨
      (s.turns.head? ≠ some .reset ∧
        (step s = coreStep { s with turns := ts } ∨ step s = hostStep { s with turns := ts })) := by
  cases ht : s.turns with
  | nil =>
    refine ⟨[], .inr ⟨by simp, ?_⟩⟩
    have he : ({ s with turns := [] } : State) = s := by cases s; cases ht; rfl
    rw [he]
    cases hb : s.busy
    · exact .inr (step_no_turn_not_busy ht hb)
    · exact .inl (step_no_turn_busy ht hb)
  | cons u ts =>
    refine ⟨ts, ?_⟩
    cases u with
    | host => exact .inr ⟨by simp, .inr (step_host_turn ht)⟩
    | core => exact .inr ⟨by simp, .inl (step_core_turn ht)⟩
    | reset => exact .inl ⟨by simp, step_reset_turn ht⟩

end Sys2Proof.Machine
end

