-- ==== Sys2Proof/Laws/HostTurn.lean ====
section
/-! SUPPORT. Who moves in a step, and what the step is then: a host's turn is its next statement's access, a turn of the core
is its core step. -/

namespace Sys2Proof.Machine

/-- What `hostTakes` answers is the host's head statement, and only `host` and `turns` have changed. -/
theorem hostTakes_cases {s t : State} {op : HostOp} (h : s.hostTakes = some (op, t)) :
    ∃ ts rest, s.host = op :: rest ∧ t = { s with turns := ts, host := rest } ∧
      step s = hostStep { s with turns := ts } := by
  unfold State.hostTakes at h
  split at h
  · rename_i ts op' rest ht hh
    injection h with h
    injection h with h1 h2
    subst h1 h2
    exact ⟨ts, rest, hh, rfl, step_host_turn ht⟩
  · rename_i op' rest ht hh
    split at h
    · cases h
    · rename_i hb
      injection h with h
      injection h with h1 h2
      subst h1 h2
      have hs : ({ s with turns := [] } : State) = s := by cases s; cases ht; rfl
      exact ⟨[], rest, hh, by cases s; cases ht; rfl, by rw [hs]; exact step_no_turn_not_busy ht (by simpa using hb)⟩
  · cases h

/-- The host's turn on an access of the window. -/
theorem step_of_hostTakes_access {s t : State} {off : BitVec 6} {x : Xfer}
    (h : s.hostTakes = some (.access off x, t)) : step s = accessWindow off x t := by
  obtain ⟨ts, rest, hh, ht, hs⟩ := hostTakes_cases h
  rw [hs, ht]
  simp only [hostStep, hh]

/-- The host's turn on an access by byte address. -/
theorem step_of_hostTakes_bus {s t : State} {addr : Nat} {x : Xfer}
    (h : s.hostTakes = some (.bus addr x, t)) : step s = accessBus addr x t := by
  obtain ⟨ts, rest, hh, ht, hs⟩ := hostTakes_cases h
  rw [hs, ht]
  simp only [hostStep, hh]

/-- The host's turn on a write, whether by offset or by byte address. -/
theorem step_of_takesWrite {s u : State} {off : BitVec 6} {v : Word} (h : s.takesWrite off v u) :
    step s = accessWindow off (.write 4 v) u := by
  rcases h with h | ⟨addr, hw, h⟩
  · exact step_of_hostTakes_access h
  · rw [step_of_hostTakes_bus h]
    simp only [accessBus, hw]

/-- What a taken statement leaves: only `host` and `turns` have changed. -/
theorem takesWrite_eq {s u : State} {off : BitVec 6} {v : Word} (h : s.takesWrite off v u) :
    ∃ ts rest, u = { s with turns := ts, host := rest } := by
  rcases h with h | ⟨addr, -, h⟩ <;>
    (obtain ⟨ts, rest, -, hu, -⟩ := hostTakes_cases h; exact ⟨ts, rest, hu⟩)

/-- A command that the host takes while BUSY = 0 is performed. -/
theorem step_of_takesCommand {s u : State} {i : Instr} (hb : s.busy = false) (h : s.takesCommand i u) :
    step s = exec i { u with answer := .written } := by
  obtain ⟨v, hv, hd⟩ := h
  obtain ⟨ts, rest, hu⟩ := takesWrite_eq hv
  have hbu : ({ u with answer := .written } : State).busy = false := by rw [hu]; exact hb
  rw [step_of_takesWrite hv]
  show ctrlWrite v { u with answer := .written } = _
  simp only [ctrlWrite, hbu, hd, Bool.false_eq_true, if_false]

/-- A turn of the core is its core step. -/
theorem step_of_coreMoves {s : State} (h : s.coreMoves) : step s = coreStep { s with turns := s.turns.tail } := by
  rcases h with h | ⟨h, hb⟩
  · obtain ⟨ts, ht⟩ := List.head?_eq_some_iff.1 h
    rw [step_core_turn ht, ht]
    rfl
  · rw [step_no_turn_busy h hb, h]
    cases s
    cases h
    rfl

/-- When the core moves, the host takes nothing. -/
theorem hostTakes_of_coreMoves {s : State} (h : s.coreMoves) : s.hostTakes = none := by
  unfold State.hostTakes
  rcases h with h | ⟨h, hb⟩
  · obtain ⟨ts, ht⟩ := List.head?_eq_some_iff.1 h
    rw [ht]
  · rw [h]
    cases s.host with
    | nil => rfl
    | cons op rest => simp [hb]

/-- In every state one of the three agents moves; where it is the host, `ts` are the turns that stay listed, and a statement at
the head of its list is the one it takes. -/
theorem step_agent (s : State) :
    s.turns.head? = some .reset ∨ s.coreMoves ∨
    ∃ ts, s.turns.head? ≠ some .reset ∧ ¬ s.coreMoves ∧ step s = hostStep { s with turns := ts } ∧
      ∀ op rest, s.host = op :: rest → s.hostTakes = some (op, { s with turns := ts, host := rest }) := by
  cases ht : s.turns with
  | nil =>
    cases hb : s.busy
    · refine .inr (.inr ⟨[], by simp, by simp [State.coreMoves, ht, hb], ?_, ?_⟩)
      · rw [step_no_turn_not_busy ht hb]
        cases s
        cases ht
        rfl
      · intro op rest hh
        simp only [State.hostTakes, ht, hh, hb, Bool.false_eq_true, if_false]
    · exact .inr (.inl (.inr ⟨ht, hb⟩))
  | cons u ts =>
    cases u with
    | host =>
      refine .inr (.inr ⟨ts, by simp, by simp [State.coreMoves, ht], step_host_turn ht, ?_⟩)
      intro op rest hh
      simp only [State.hostTakes, ht, hh]
    | core => exact .inr (.inl (.inl (by simp [ht])))
    | reset => exact .inl rfl

end Sys2Proof.Machine
end

