-- ==== Sys2Proof/Laws/PerInstr.lean ====
section
/-! SUPPORT. The family `RowFit`: the encoded word of a command agrees with its row of spec/opcode_table.json, whose match
and mask are copied here, in every bit the mask fixes. -/

namespace Sys2Proof.Laws

/-- The row's `mask` (spec/opcode_table.json). -/
def rowMask : Instr → Word
  | .nop => 0xFFFFFFFF#32
  | .sbox _ => 0xFFFF00FF#32
  | .subbytes => 0xFFFFFFFF#32
  | .shiftrows => 0xFFFFFFFF#32
  | .gfmul _ _ => 0xFFFC00FF#32
  | .mixcolumns => 0xFFFFFFFF#32
  | .keystep _ => 0xFFFFFF0F#32
  | .addkey => 0xFFFFFFFF#32
  | .round _ => 0xFFFFFF0F#32
  | .encrypt => 0xFFFFFFFF#32

/-- The row's `match` (spec/opcode_table.json). -/
def rowMatch : Instr → Word
  | .nop => 0x00000000#32
  | .sbox _ => 0x00000001#32
  | .subbytes => 0x00000002#32
  | .shiftrows => 0x00000003#32
  | .gfmul _ _ => 0x00000004#32
  | .mixcolumns => 0x00000005#32
  | .keystep _ => 0x00000006#32
  | .addkey => 0x00000007#32
  | .round _ => 0x00000008#32
  | .encrypt => 0x00000009#32

/-- The encoded word fits the row: under the mask it is the match. -/
def RowFit.Statement (i : Instr) : Prop := encode i &&& rowMask i = rowMatch i

theorem RowFit.nop : RowFit.Statement .nop := by
  unfold RowFit.Statement; decide

theorem RowFit.sbox (a : Byte) : RowFit.Statement (.sbox a) := by
  revert a; unfold RowFit.Statement; decide

theorem RowFit.subbytes : RowFit.Statement .subbytes := by
  unfold RowFit.Statement; decide

theorem RowFit.shiftrows : RowFit.Statement .shiftrows := by
  unfold RowFit.Statement; decide

theorem RowFit.gfmul (a : Byte) (b : BitVec 2) : RowFit.Statement (.gfmul a b) := by
  revert a b; unfold RowFit.Statement; decide +kernel

theorem RowFit.mixcolumns : RowFit.Statement .mixcolumns := by
  unfold RowFit.Statement; decide

theorem RowFit.keystep (j : BitVec 4) : RowFit.Statement (.keystep j) := by
  revert j; unfold RowFit.Statement; decide

theorem RowFit.addkey : RowFit.Statement .addkey := by
  unfold RowFit.Statement; decide

theorem RowFit.round (j : BitVec 4) : RowFit.Statement (.round j) := by
  revert j; unfold RowFit.Statement; decide

theorem RowFit.encrypt : RowFit.Statement .encrypt := by
  unfold RowFit.Statement; decide

end Sys2Proof.Laws
end

