-- ==== Sys2Proof/Tests/Slice0.lean ====
section
/-! SUPPORT. The model's own tests. Expected values come from the spec: the encodings of 30_encoding.md R80 to R93 written
out bit by bit, and the vectors of 95_test_vectors.md, named at each test. -/

namespace Sys2Proof.Tests

open Sys2Proof.Machine

/-! ### Well-formedness: RIDX 10 to 15 is refused (30_encoding.md R85) -/

theorem test_wf_refuses_keystep_10 : Instr.wf (.keystep 10#4) = false := by decide
theorem test_wf_refuses_round_15 : Instr.wf (.round 15#4) = false := by decide
theorem test_wf_takes_keystep_9 : Instr.wf (.keystep 9#4) = true := by decide

/-! ### Decoding: one word of each command, bit by bit, RSV(14) B(2) A(8) RIDX(4) OP(4) -/

theorem test_decode_nop : decodeWord 0b00000000000000000000000000000000#32 = .legal .nop := by decide
theorem test_decode_sbox : decodeWord 0b00000000000000000101001100000001#32 = .legal (.sbox 0x53#8) := by decide
theorem test_decode_subbytes : decodeWord 0b00000000000000000000000000000010#32 = .legal .subbytes := by decide
theorem test_decode_shiftrows : decodeWord 0b00000000000000000000000000000011#32 = .legal .shiftrows := by decide
theorem test_decode_gfmul : decodeWord 0b00000000000000110101011100000100#32 = .legal (.gfmul 0x57#8 3#2) := by decide
theorem test_decode_mixcolumns : decodeWord 0b00000000000000000000000000000101#32 = .legal .mixcolumns := by decide
theorem test_decode_keystep : decodeWord 0b00000000000000000000000010010110#32 = .legal (.keystep 9#4) := by decide
theorem test_decode_addkey : decodeWord 0b00000000000000000000000000000111#32 = .legal .addkey := by decide
theorem test_decode_round : decodeWord 0b00000000000000000000000001011000#32 = .legal (.round 5#4) := by decide
theorem test_decode_encrypt : decodeWord 0b00000000000000000000000000001001#32 = .legal .encrypt := by decide

/-- 95_test_vectors.md L2-9, E3 to E10: the words rejected, each under its name. -/
theorem test_decode_rejects :
    decodeWord 0x0000000A#32 = .illegal .rsvdOp ∧ decodeWord 0xFFFFFFFF#32 = .illegal .rsvdOp
      ∧ decodeWord 0x00000010#32 = .illegal .rsvdBits ∧ decodeWord 0x000000A6#32 = .illegal .badRidx
      ∧ decodeWord 0x000001A6#32 = .illegal .rsvdBits ∧ decodeWord 0x00040004#32 = .illegal .rsvdBits
      ∧ decodeWord 0x00005302#32 = .illegal .rsvdBits ∧ decodeWord 0x000000F8#32 = .illegal .badRidx := by decide

/-! ### Small states -/

/-- The block `000102...0f`. -/
def counting : Block := #v[0x00, 0x01, 0x02, 0x03, 0x04, 0x05, 0x06, 0x07, 0x08, 0x09, 0x0a, 0x0b, 0x0c, 0x0d, 0x0e, 0x0f]

/-- The block `00112233...ff`. -/
def plain : Block := #v[0x00, 0x11, 0x22, 0x33, 0x44, 0x55, 0x66, 0x77, 0x88, 0x99, 0xaa, 0xbb, 0xcc, 0xdd, 0xee, 0xff]

/-- An idle machine with the given STATE and KEY `000102...0f`. -/
def idleWith (b : Block) : State where
  state := b
  key := counting
  result := 0x00#8
  seq := .idle
  rnd := 0#4
  err := false
  errCode := 0#3
  draws := 0
  host := []
  turns := []
  answer := .silent

/-- An idle machine. -/
def idle : State := idleWith counting

/-- ENCRYPT in progress, as in 95_test_vectors.md E16: SEQ = ROUND, RND = 3. -/
def busy : State := { idle with seq := .round, rnd := 3#4 }

/-- The host's next turn is the access `op`. -/
def takes (s : State) (op : HostOp) : State := { s with turns := [.host], host := [op] }

/-- The state a step or a command answers; the machine itself where it stops. -/
def after (s : State) (o : Out) : State :=
  match o with
  | .next t => t
  | .fault _ => s
  | .refused _ => s

/-- STATUS after the host's write of `v` at `off`. -/
def statusAfter (s : State) (off : BitVec 6) (v : Word) : Word := (after s (step (takes s (hostWr off v)))).statusWord

/-! ### Meanings (95_test_vectors.md L2-1 to L2-8) -/

theorem test_nop_status : statusAfter idle 0x00#6 0x00000000#32 = 0x00000302#32 := by decide +kernel
theorem test_sbox_53 : (after idle (exec (.sbox 0x53#8) idle)).result = 0xED#8 := by decide +kernel
theorem test_sbox_52 : (after idle (exec (.sbox 0x52#8) idle)).result = 0x00#8 := by decide +kernel
theorem test_subbytes : (after idle (exec .subbytes idle)).state =
    #v[0x63, 0x7c, 0x77, 0x7b, 0xf2, 0x6b, 0x6f, 0xc5, 0x30, 0x01, 0x67, 0x2b, 0xfe, 0xd7, 0xab, 0x76] := by decide +kernel
theorem test_shiftrows : (after idle (exec .shiftrows idle)).state =
    #v[0x00, 0x05, 0x0a, 0x0f, 0x04, 0x09, 0x0e, 0x03, 0x08, 0x0d, 0x02, 0x07, 0x0c, 0x01, 0x06, 0x0b] := by decide +kernel
theorem test_gfmul_57_3 : (after idle (exec (.gfmul 0x57#8 3#2) idle)).result = 0xF9#8 := by decide +kernel
theorem test_gfmul_80_2 : (after idle (exec (.gfmul 0x80#8 2#2) idle)).result = 0x1B#8 := by decide +kernel
theorem test_mixcolumns_no_aliasing : (after idle (exec .mixcolumns idle)).state =
    #v[0x02, 0x07, 0x00, 0x05, 0x06, 0x03, 0x04, 0x01, 0x0a, 0x0f, 0x08, 0x0d, 0x0e, 0x0b, 0x0c, 0x09] := by decide +kernel
theorem test_keystep_0 : (after idle (exec (.keystep 0#4) idle)).key =
    #v[0xd6, 0xaa, 0x74, 0xfd, 0xd2, 0xaf, 0x72, 0xfa, 0xda, 0xa6, 0x78, 0xf1, 0xd6, 0xab, 0x76, 0xfe] := by decide +kernel
theorem test_keystep_8_uses_1B :
    (after idle (exec (.keystep 8#4) { idle with key := blockOf fun _ => 0x00#8 })).key =
      #v[0x78, 0x63, 0x63, 0x63, 0x78, 0x63, 0x63, 0x63, 0x78, 0x63, 0x63, 0x63, 0x78, 0x63, 0x63, 0x63] := by decide +kernel
theorem test_addkey : (after idle (exec .addkey (idleWith plain))).state =
    #v[0x00, 0x10, 0x20, 0x30, 0x40, 0x50, 0x60, 0x70, 0x80, 0x90, 0xa0, 0xb0, 0xc0, 0xd0, 0xe0, 0xf0] := by decide +kernel
theorem test_round_0 :
    (after idle (exec (.round 0#4) (idleWith
      #v[0x00, 0x10, 0x20, 0x30, 0x40, 0x50, 0x60, 0x70, 0x80, 0x90, 0xa0, 0xb0, 0xc0, 0xd0, 0xe0, 0xf0]))).state =
    #v[0x89, 0xd8, 0x10, 0xe8, 0x85, 0x5a, 0xce, 0x68, 0x2d, 0x18, 0x43, 0xd8, 0xcb, 0x12, 0x8f, 0xe4] := by decide +kernel
theorem test_round_9_skips_mix :
    (after idle (exec (.round 9#4) { idle with state := blockOf fun _ => 0x00#8, key := blockOf fun _ => 0x00#8 })).state =
    #v[0x36, 0, 0, 0, 0x36, 0, 0, 0, 0x36, 0, 0, 0, 0x36, 0, 0, 0] := by decide +kernel
theorem test_encrypt_status : statusAfter { idle with seq := .done } 0x00#6 0x00000009#32 = 0x00000101#32 := by decide +kernel
theorem test_core_step_counts : (after busy (coreStep busy)).statusWord = 0x00004201#32 := by decide +kernel

/-! ### Errors and the window (95_test_vectors.md L2-9) -/

theorem test_E3 : statusAfter idle 0x00#6 0x0000000A#32 = 0x00000044#32 := by decide +kernel
theorem test_E11_first_code_kept :
    statusAfter { idle with err := true, errCode := 4#3 } 0x00#6 0x000000A6#32 = 0x00000044#32 := by decide +kernel
theorem test_E13_clear : statusAfter { idle with seq := .done, err := true, errCode := 4#3 } 0x04#6 0x00000004#32 = 0x00000302#32 := by
  decide +kernel
theorem test_E17_busy_before_decode : statusAfter busy 0x00#6 0x0000000F#32 = 0x00003215#32 := by decide +kernel
theorem test_E18_busy_data : statusAfter busy 0x10#6 0xDEADBEEF#32 = 0x00003225#32 := by decide +kernel
theorem test_E24_bus_error : ∃ d, step (takes idle (hostRd 0x0C#6)) = .fault (.busError 0x0C#6 (.read 4) d) := ⟨_, rfl⟩
theorem test_E28_misaligned_command :
    step (takes idle (hostWr 0x02#6 0x00000009#32)) = .fault (.busError 0x02#6 (.write 4 0x00000009#32) none) := rfl
theorem test_E29_packing :
    (after idle (step (takes idle (hostWr 0x10#6 0x01234567#32)))).state =
      #v[0x01, 0x23, 0x45, 0x67, 0x04, 0x05, 0x06, 0x07, 0x08, 0x09, 0x0a, 0x0b, 0x0c, 0x0d, 0x0e, 0x0f] := by decide +kernel
theorem test_read_key3 :
    (after idle (step (takes idle (hostRd 0x2C#6)))).answer = .data 0x0C0D0E0F#32 := by decide +kernel

/-- A command placed at reset is what the very next step runs. -/
theorem test_withFetchWord_runs_first :
    (after State.reset (step (State.reset.withFetchWord 32 0x00005301))).result = 0xED#8 := by decide +kernel

/-! ### Witnesses: for each statement with hypotheses, states and operands that meet them, at the ends of their ranges -/

theorem witness_ResetTurnClearsControlAndAborts : ({ busy with turns := [.reset] } : State).turns = .reset :: [] := rfl

theorem witness_DecodeOfEncode : Instr.wf (.round 0#4) = true ∧ Instr.wf (.round 9#4) = true := by decide

theorem witness_LegalWordIsItsEncoding : decodeWord 0x0003FF04#32 = .legal (.gfmul 0xFF#8 3#2) := by decide

theorem witness_ReservedOpcodeRejected :
    0xA ≤ (opField 0x0000000A#32).toNat ∧ 0xA ≤ (opField 0xFFFFFFFF#32).toNat ∧ idle.busy = false := by decide

theorem witness_UnusedBitRejected :
    ((opField 0x00000010#32).toNat ≤ 9 ∧ 0x00000010#32 &&& ~~~(usedMask (opField 0x00000010#32)) ≠ 0#32)
      ∧ ((opField 0x80000009#32).toNat ≤ 9 ∧ 0x80000009#32 &&& ~~~(usedMask (opField 0x80000009#32)) ≠ 0#32)
      ∧ idle.busy = false ∧ decodeWord 0x00000096#32 = .legal (.keystep 9#4) := by decide

/-- Three words that no command has, one for each code. -/
theorem witness_AdmittedWordsExactly :
    (∀ i, decodeWord 0x0000000F#32 ≠ .legal i) ∧ (∀ i, decodeWord 0x00000010#32 ≠ .legal i)
      ∧ ∀ i, decodeWord 0x000000A6#32 ≠ .legal i := ⟨nofun, nofun, nofun⟩

theorem witness_BadRoundIndexRejected : 9 < (10#4).toNat ∧ 9 < (15#4).toNat ∧ idle.busy = false := by decide

theorem witness_StepRunsDecodedCommand :
    (takes idle (hostWr 0x00#6 0x00000096#32)).hostTakes = some (.access 0x00#6 (.write 4 0x00000096#32), idle)
      ∧ idle.busy = false ∧ decodeWord 0x00000096#32 = .legal (.keystep 9#4)
      ∧ decodeTableWord 32 0x00000096 = some (.keystep 9#4) := ⟨rfl, rfl, by decide, by decide⟩

theorem witness_CtrlWriteIsDispatched :
    ((takes busy (hostWr 0x00#6 0#32)).hostTakes = some (.access 0x00#6 (.write 4 0#32), busy) ∧ busy.busy = true)
      ∧ ((takes idle (hostWr 0x00#6 0x0A#32)).hostTakes = some (.access 0x00#6 (.write 4 0x0A#32), idle)
          ∧ idle.busy = false ∧ decodeWord 0x0A#32 = .illegal .rsvdOp)
      ∧ ((takes idle (hostWr 0x00#6 0#32)).hostTakes = some (.access 0x00#6 (.write 4 0#32), idle)
          ∧ decodeWord 0#32 = .legal .nop) := ⟨⟨rfl, rfl⟩, ⟨rfl, rfl, by decide⟩, rfl, by decide⟩

theorem witness_CommandErrorKeepsFirstCode : idle.err = false ∧ ({ idle with err := true } : State).err = true := ⟨rfl, rfl⟩

/-- Each of the three ways: the error stays, a reset, an acknowledgement. -/
theorem witness_ErrorStaysUntilAcknowledged :
    (∃ t, step { idle with err := true } = .next t) ∧ (∃ t, step { idle with err := true, turns := [.reset] } = .next t)
      ∧ ∃ t, step (takes { idle with err := true } hostClrErr) = .next t ∧ t.err = false := ⟨⟨_, rfl⟩, ⟨_, rfl⟩, _, rfl, rfl⟩

/-- For NOP, SUBBYTES, SHIFTROWS, MIXCOLUMNS, ADDKEY, ENCRYPT: not busy, busy, and a word with an unused bit set (the lowest
and the highest) for each of the six opcodes. -/
theorem witness_NopOnlyCompletes :
    idle.busy = false ∧ busy.busy = true ∧ (∃ t, exec .nop State.reset = .next t)
      ∧ (opField 0x00000010#32 = 0x0#4 ∧ (0x00000010#32).extractLsb' 4 28 ≠ 0#28) := ⟨rfl, rfl, ⟨_, rfl⟩, by decide⟩
theorem witness_SubbytesSubstitutesEveryByte :
    idle.busy = false ∧ busy.busy = true ∧ opField 0x80000002#32 = 0x2#4 ∧ (0x80000002#32).extractLsb' 4 28 ≠ 0#28 := by decide
theorem witness_ShiftrowsRotatesRows :
    idle.busy = false ∧ busy.busy = true ∧ opField 0x80000003#32 = 0x3#4 ∧ (0x80000003#32).extractLsb' 4 28 ≠ 0#28
      ∧ (2 : Fin 4).val = ((3 : Fin 4).val + (3 : Fin 4).val) % 4 := by decide
theorem witness_MixcolumnsMixesEachColumn :
    idle.busy = false ∧ busy.busy = true ∧ opField 0x80000005#32 = 0x5#4 ∧ (0x80000005#32).extractLsb' 4 28 ≠ 0#28
      ∧ 0x0c#8 = idle.state[idx 0 3] ∧ 0x0d#8 = idle.state[idx 1 3] ∧ 0x0e#8 = idle.state[idx 2 3]
      ∧ 0x0f#8 = idle.state[idx 3 3] := by decide +kernel
theorem witness_AddkeyXorsKeyIntoState :
    idle.busy = false ∧ busy.busy = true ∧ opField 0x80000007#32 = 0x7#4 ∧ (0x80000007#32).extractLsb' 4 28 ≠ 0#28 := by decide
theorem witness_EncryptIsAccepted :
    idle.busy = false ∧ busy.busy = true ∧ opField 0x80000009#32 = 0x9#4 ∧ (0x80000009#32).extractLsb' 4 28 ≠ 0#28 := by decide

theorem witness_SboxLooksUpOneByte :
    idle.busy = false ∧ busy.busy = true
      ∧ (opField 0x000000F1#32 = 0x1#4 ∧ ridxField 0x000000F1#32 ≠ 0#4)
      ∧ (opField 0x00010001#32 = 0x1#4 ∧ bField 0x00010001#32 ≠ 0#2)
      ∧ (opField 0x00040001#32 = 0x1#4 ∧ rsvField 0x00040001#32 ≠ 0#14) := by decide

theorem witness_GfmulMultipliesByCoefficient :
    idle.busy = false ∧ busy.busy = true
      ∧ (opField 0x00000014#32 = 0x4#4 ∧ ridxField 0x00000014#32 ≠ 0#4)
      ∧ (opField 0x00040004#32 = 0x4#4 ∧ rsvField 0x00040004#32 ≠ 0#14) := by decide

theorem witness_KeystepAdvancesKey :
    idle.busy = false ∧ busy.busy = true ∧ (9#4).toNat = (9 : Fin 10).val ∧ 9 < (10#4).toNat
      ∧ (opField 0x00000106#32 = 0x6#4 ∧ aField 0x00000106#32 ≠ 0#8)
      ∧ (opField 0x00010006#32 = 0x6#4 ∧ bField 0x00010006#32 ≠ 0#2)
      ∧ (opField 0x80000006#32 = 0x6#4 ∧ rsvField 0x80000006#32 ≠ 0#14) := by decide

theorem witness_RoundIsItsStages :
    idle.busy = false ∧ busy.busy = true ∧ (0#4).toNat ≤ 9 ∧ (9#4).toNat ≤ 9 ∧ 9 < (10#4).toNat
      ∧ (opField 0x00000108#32 = 0x8#4 ∧ aField 0x00000108#32 ≠ 0#8)
      ∧ (opField 0x00010008#32 = 0x8#4 ∧ bField 0x00010008#32 ≠ 0#2)
      ∧ (opField 0x80000008#32 = 0x8#4 ∧ rsvField 0x80000008#32 ≠ 0#14) := by decide

theorem witness_PrimitiveCompletesAtOnce :
    Instr.wf (.keystep 9#4) = true ∧ Instr.keystep 9#4 ≠ .encrypt ∧ idle.busy = false := by decide

/-- One command that changes each register, a busy rejection, and an ill-formed command. -/
theorem witness_CommandsWriteOnlyTheirRegisters :
    (∃ t, exec .subbytes idle = .next t ∧ t.state ≠ idle.state) ∧ (∃ t, exec (.keystep 0#4) idle = .next t ∧ t.key ≠ idle.key)
      ∧ (∃ t, exec (.sbox 0#8) idle = .next t ∧ t.result ≠ idle.result)
      ∧ (∃ t, exec .encrypt { idle with rnd := 10#4 } = .next t ∧ t.rnd ≠ 10#4)
      ∧ (∃ t, exec .nop busy = .next t ∧ t.err ≠ busy.err) ∧ Instr.wf (.round 10#4) = false :=
  ⟨⟨_, rfl, by decide +kernel⟩, ⟨_, rfl, by decide +kernel⟩, ⟨_, rfl, by decide +kernel⟩, ⟨_, rfl, by decide⟩,
    ⟨_, rfl, by decide⟩, by decide⟩

theorem witness_InitialStepWhitens : ({ idle with seq := .initial } : State).seq = .initial := rfl

theorem witness_RoundStepRunsRoundOfCounter :
    busy.seq = .round ∧ busy.rnd.toNat ≤ 9 ∧ ({ busy with rnd := 9#4 } : State).rnd.toNat ≤ 9 := by decide

/-- A listed turn of the core, busy and not; the fair turn; and the two ends of ROUND, which meet the invariant. -/
theorem witness_CoreWaitsUnlessBusy :
    (({ idle with turns := [.core] } : State).turns = .core :: [] ∧ ({ idle with turns := [.core] } : State).busy = false)
      ∧ (({ busy with turns := [.core] } : State).turns = .core :: [] ∧ ({ busy with turns := [.core] } : State).busy = true)
      ∧ (busy.turns = [] ∧ busy.busy = true)
      ∧ ({ idle with seq := .initial } : State).Inv ∧ ({ busy with rnd := 9#4 } : State).Inv :=
  ⟨⟨rfl, rfl⟩, ⟨rfl, rfl⟩, ⟨rfl, rfl⟩, ⟨by decide, by decide⟩, by decide, by decide⟩

theorem witness_EncryptEndsAfterElevenSteps : idle.busy = false ∧ 0 < 11 ∧ 10 < 11 := by decide

/-- In INITIAL and in ROUND, and with a host write arriving meanwhile. -/
theorem witness_InterleavedEncryptStaysOnCourse :
    idle.busy = false ∧ (∃ t, ({ idle with seq := .initial } : State).busy = true
      ∧ ({ idle with seq := .initial } : State).EncryptOf counting counting ∧ idle.turns.head? ≠ some .reset
      ∧ step { idle with seq := .initial } = .next t)
    ∧ ∃ s t : State, s.busy = true ∧ s.EncryptOf counting counting ∧ s.turns.head? ≠ some .reset
      ∧ s.hostTakes ≠ none ∧ step s = .next t :=
  ⟨rfl, ⟨_, rfl, ⟨rfl, rfl, rfl⟩, by decide, rfl⟩,
    { takes idle (hostWr 0x10#6 0xDEADBEEF#32) with seq := .initial }, _, rfl, ⟨rfl, rfl, rfl⟩, by decide, by simp [State.hostTakes, takes],
    rfl⟩

theorem witness_EncryptAgreesWithPrimitives : idle.busy = false := rfl

/-- A step on each event of the table, and one on none: a data write that arrives while BUSY = 1. -/
theorem witness_SequencerMovesOnlyAsTabled :
    (∃ t, step { idle with turns := [.reset] } = .next t) ∧ (∃ t, step (takes idle (hostWr 0x00#6 9#32)) = .next t ∧ t.seq = .initial)
      ∧ (∃ t, step (takes idle (hostWr 0x00#6 0#32)) = .next t ∧ t.seq = .done)
      ∧ (∃ t, step { idle with seq := .initial } = .next t ∧ t.seq = .round)
      ∧ (∃ t, step busy = .next t ∧ t.seq = .round) ∧ (∃ t, step { busy with rnd := 9#4 } = .next t ∧ t.seq = .done)
      ∧ ∃ t, step (takes busy (hostWr 0x10#6 0#32)) = .next t ∧ t.seq = busy.seq ∧ t.rnd = busy.rnd :=
  ⟨⟨_, rfl⟩, ⟨_, rfl, rfl⟩, ⟨_, rfl, rfl⟩, ⟨_, rfl, rfl⟩, ⟨_, rfl, rfl⟩, ⟨_, rfl, rfl⟩, _, rfl, rfl, rfl⟩

theorem witness_ControlIsIndependentOfData :
    busy.SameControl { busy with state := plain } ∧ busy.state ≠ plain ∧ ∃ t, step busy = .next t :=
  ⟨⟨rfl, rfl, rfl, rfl, rfl, rfl, rfl⟩, by decide +kernel, _, rfl⟩

/-- Reads of the first and the last column of STATE and KEY, not busy and busy. -/
theorem witness_DataReadReturnsColumn :
    idle.busy = false
      ∧ (takes idle (hostRd 0x10#6)).hostTakes = some (.access (BitVec.ofNat 6 (0x10 + 4 * (0 : Fin 4).val)) (.read 4), idle)
      ∧ (takes idle (hostRd 0x2C#6)).hostTakes = some (.access (BitVec.ofNat 6 (0x20 + 4 * (3 : Fin 4).val)) (.read 4), idle) :=
  ⟨rfl, rfl, rfl⟩
theorem witness_DataReadWhileBusyIsDraw :
    busy.busy = true
      ∧ (takes busy (hostRd 0x1C#6)).hostTakes = some (.access (BitVec.ofNat 6 (0x10 + 4 * (3 : Fin 4).val)) (.read 4), busy)
      ∧ (takes busy (hostRd 0x20#6)).hostTakes = some (.access (BitVec.ofNat 6 (0x20 + 4 * (0 : Fin 4).val)) (.read 4), busy) :=
  ⟨rfl, rfl, rfl⟩
theorem witness_DataWriteReplacesColumn :
    idle.busy = false
      ∧ (takes idle (hostWr 0x1C#6 1#32)).hostTakes
          = some (.access (BitVec.ofNat 6 (0x10 + 4 * (3 : Fin 4).val)) (.write 4 1#32), idle)
      ∧ (takes idle (hostWr 0x20#6 1#32)).hostTakes
          = some (.access (BitVec.ofNat 6 (0x20 + 4 * (0 : Fin 4).val)) (.write 4 1#32), idle) := ⟨rfl, rfl, rfl⟩
theorem witness_DataWriteWhileBusyRejected :
    busy.busy = true
      ∧ (takes busy (hostWr 0x10#6 1#32)).hostTakes
          = some (.access (BitVec.ofNat 6 (0x10 + 4 * (0 : Fin 4).val)) (.write 4 1#32), busy)
      ∧ (takes busy (hostWr 0x2C#6 1#32)).hostTakes
          = some (.access (BitVec.ofNat 6 (0x20 + 4 * (3 : Fin 4).val)) (.write 4 1#32), busy) := ⟨rfl, rfl, rfl⟩

theorem witness_ColumnReadsBackAsWritten : idle.busy = false := rfl

theorem witness_StatusReadsAndClears :
    (takes busy (hostRd 0x04#6)).hostTakes = some (.access 0x04#6 (.read 4), busy)
      ∧ ((takes busy hostClrErr).hostTakes = some (.access 0x04#6 (.write 4 0x00000004#32), busy)
          ∧ (0x00000004#32).getLsbD 2 = true)
      ∧ ((takes idle (hostWr 0x04#6 0xFFFFFFFB#32)).hostTakes = some (.access 0x04#6 (.write 4 0xFFFFFFFB#32), idle)
          ∧ (0xFFFFFFFB#32).getLsbD 2 = false) := ⟨rfl, ⟨rfl, by decide⟩, rfl, by decide⟩

theorem witness_ResultReadsAndIgnoresWrites_core : ∃ t, coreStep busy = .next t := ⟨_, rfl⟩

theorem witness_ResultReadsAndIgnoresWrites :
    (takes busy (hostRd 0x08#6)).hostTakes = some (.access 0x08#6 (.read 4), busy)
      ∧ (takes idle (hostWr 0x08#6 1#32)).hostTakes = some (.access 0x08#6 (.write 4 1#32), idle) := ⟨rfl, rfl⟩

theorem witness_CtrlReadsZeroAndKeepsNothing :
    (takes idle (hostRd 0x00#6)).hostTakes = some (.access 0x00#6 (.read 4), idle)
      ∧ (takes idle (hostWr 0x00#6 9#32)).hostTakes = some (.access 0x00#6 (.write 4 9#32), idle) := ⟨rfl, rfl⟩

/-- A legal access, and the three ways to be illegal: width, alignment, an unmapped offset. -/
theorem witness_IllegalAccessIsBusError :
    (takes idle (hostRd 0x2C#6)).hostTakes = some (.access 0x2C#6 (.read 4), idle)
      ∧ (takes idle (.access 0x10#6 (.read 1))).hostTakes = some (.access 0x10#6 (.read 1), idle)
      ∧ (takes idle (hostRd 0x12#6)).hostTakes = some (.access 0x12#6 (.read 4), idle)
      ∧ (takes idle (hostWr 0x30#6 0#32)).hostTakes = some (.access 0x30#6 (.write 4 0#32), idle) := ⟨rfl, rfl, rfl, rfl⟩

theorem witness_WindowLiesAtBaseAddress :
    (takes idle (.bus (Config.baseAddr + 0x3C) (.read 4))).hostTakes = some (.bus (Config.baseAddr + 0x3C) (.read 4), idle)
      ∧ Config.baseAddr + 0x3C = Config.baseAddr + (0x3C#6).toNat
      ∧ (takes idle (.bus (Config.baseAddr + 0x40) (.read 4))).hostTakes = some (.bus (Config.baseAddr + 0x40) (.read 4), idle)
      ∧ Config.baseAddr + 0x40 ≤ Config.baseAddr + 0x40 := ⟨rfl, rfl, rfl, Nat.le_refl _⟩

theorem witness_WaitLoopEnds :
    ({ idle with seq := .initial, host := [hostWait] } : State).Inv
      ∧ ({ idle with seq := .initial, host := [hostWait] } : State).turns = []
      ∧ ({ idle with seq := .initial, host := [hostWait] } : State).host = .wait :: [] := ⟨⟨rfl, rfl⟩, rfl, rfl⟩

theorem witness_SboxIsAffineOfInverse : 0x01#8 ≠ 0x00#8 ∧ 0xFF#8 ≠ 0x00#8 := by decide

theorem witness_RoundConstantsDouble : (9 : Fin 10).val = (8 : Fin 10).val + 1 ∧ (1 : Fin 10).val = (0 : Fin 10).val + 1 := by decide

theorem witness_ShiftrowsHasPeriodFour : idle.busy = false := rfl

/-- Two blocks that agree on column 0 only, and a column of equal bytes. -/
theorem witness_ColumnMixIsColumnLocal :
    (∀ r : Fin 4, counting[idx r 0] = (unpack (blockOf fun _ => 0xFF#8) 0 0x00010203#32)[idx r 0])
      ∧ ∀ r : Fin 4, (blockOf fun _ => 0xC6#8)[idx r 3] = 0xC6#8 := by decide +kernel

/-- The invariant at both ends of the rounds, with an error recorded, and a step from it. -/
theorem witness_InvariantKeptByEveryStep :
    ({ busy with rnd := 0#4 } : State).Inv ∧ ({ busy with rnd := 9#4, err := true, errCode := 5#3 } : State).Inv
      ∧ ∃ t, step { busy with rnd := 9#4 } = .next t := ⟨⟨rfl, rfl⟩, ⟨rfl, rfl⟩, _, rfl⟩

theorem witness_SafeHostNeverStops :
    (takes busy (hostWr 0x10#6 1#32)).Inv ∧ (takes busy (hostWr 0x10#6 1#32)).hostSafe = true := ⟨⟨rfl, rfl⟩, rfl⟩

end Sys2Proof.Tests
end

section
/-! SUPPORT. The register window: the step of a legal host access, register by register (20_memory.md R51 to R60). -/

namespace Sys2Proof.Machine

/-! Which register an access acts on -/

/-- Every mapped offset is a multiple of 4 (20_memory.md R51, R52). -/
theorem regAt_aligned {off : BitVec 6} (h : (regAt off).isSome = true) : off.toNat % 4 = 0 := by
  revert off; decide

theorem legalReg_of_regAt {off : BitVec 6} {x : Xfer} {r : Reg} (hx : x.width = 4) (h : regAt off = some r) :
    legalReg off x = some r := by
  have ha : off.toNat % 4 = 0 := regAt_aligned (by rw [h]; rfl)
  rw [legalReg, if_pos ⟨hx, ha⟩, h]

theorem regAt_state (k : Fin 4) : regAt (BitVec.ofNat 6 (0x10 + 4 * k.val)) = some (.state k) := by
  revert k; decide

theorem regAt_key (k : Fin 4) : regAt (BitVec.ofNat 6 (0x20 + 4 * k.val)) = some (.key k) := by
  revert k; decide

/-! The registers of the state from which the host's statement has been taken off are those before the step -/

theorem hostTakes_busy {s t : State} {op : HostOp} (h : s.hostTakes = some (op, t)) : t.busy = s.busy := by
  obtain ⟨ts, rest, -, rfl, -⟩ := hostTakes_cases h
  rfl

theorem hostTakes_answered_busy {s t : State} {op : HostOp} (h : s.hostTakes = some (op, t)) (a : Answer) :
    (t.answered a).busy = s.busy :=
  (State.answered_busy t a).trans (hostTakes_busy h)

theorem hostTakes_state {s t : State} {op : HostOp} (h : s.hostTakes = some (op, t)) : t.state = s.state := by
  obtain ⟨ts, rest, -, rfl, -⟩ := hostTakes_cases h
  rfl

theorem hostTakes_key {s t : State} {op : HostOp} (h : s.hostTakes = some (op, t)) : t.key = s.key := by
  obtain ⟨ts, rest, -, rfl, -⟩ := hostTakes_cases h
  rfl

theorem hostTakes_result {s t : State} {op : HostOp} (h : s.hostTakes = some (op, t)) : t.result = s.result := by
  obtain ⟨ts, rest, -, rfl, -⟩ := hostTakes_cases h
  rfl

theorem hostTakes_statusWord {s t : State} {op : HostOp} (h : s.hostTakes = some (op, t)) :
    t.statusWord = s.statusWord := by
  obtain ⟨ts, rest, -, rfl, -⟩ := hostTakes_cases h
  rfl

/-! The step of a 4-byte access of a mapped register -/

/-- The bus-error check lets a 4-byte access of a mapped register through. -/
theorem step_of_hostTakes_reg {s t : State} {off : BitVec 6} {x : Xfer} {r : Reg}
    (h : s.hostTakes = some (.access off x, t)) (hx : x.width = 4) (hr : regAt off = some r) :
    step s = accessReg r x t := by
  rw [step_of_hostTakes_access h, accessWindow, legalReg_of_regAt hx hr]

theorem step_of_hostTakes_read {s t : State} {off : BitVec 6} {r : Reg}
    (h : s.hostTakes = some (.access off (.read 4), t)) (hr : regAt off = some r) :
    step s = .next ((readReg r t).2.answered (.data (readReg r t).1)) :=
  step_of_hostTakes_reg h rfl hr

theorem step_of_hostTakes_write {s t : State} {off : BitVec 6} {r : Reg} {v : Word}
    (h : s.hostTakes = some (.access off (.write 4 v), t)) (hr : regAt off = some r) :
    step s = writeReg r v (t.answered .written) :=
  step_of_hostTakes_reg h rfl hr

/-! The data registers, busy and not -/

theorem readColumn_of_not_busy {s : State} (hb : s.busy = false) (X : Block) (k : Fin 4) :
    readColumn X k s = (pack X k, s) := by
  simp [readColumn, hb]

theorem dataWrite_of_not_busy {s : State} (hb : s.busy = false) (perform : State → State) :
    dataWrite perform s = perform s := by
  simp [dataWrite, hb]

theorem dataWrite_of_busy {s : State} (hb : s.busy = true) (perform : State → State) :
    dataWrite perform s = s.cmdError .busyData := by
  simp [dataWrite, hb]

/-- `unpack`, by row and column (20_memory.md R53). -/
theorem unpack_idx (X : Block) (k : Fin 4) (v : Word) (r c : Fin 4) :
    (unpack X k v)[idx r c] = if c = k then v.extractLsb' (24 - 8 * r.val) 8 else X[idx r c] := by
  rw [unpack_apply, colOf_idx, rowOf_idx, byteOf]

/-- Settles O34: a read of a data register is its `readColumn`, which packs the column while BUSY = 0. -/
theorem dataReadReturnsColumn : Obligations.DataReadReturnsColumn := by
  intro s t k hb
  refine ⟨fun h => ⟨pack s.state k, ?_, rfl⟩, fun h => ⟨pack s.key k, ?_, rfl⟩⟩
  · rw [step_of_hostTakes_read h (regAt_state k), readReg,
      readColumn_of_not_busy ((hostTakes_busy h).trans hb), ← hostTakes_state h]
    rfl
  · rw [step_of_hostTakes_read h (regAt_key k), readReg,
      readColumn_of_not_busy ((hostTakes_busy h).trans hb), ← hostTakes_key h]
    rfl

/-- Settles O36: while BUSY = 0 a write of a data register is an `unpack` of its column. -/
theorem dataWriteReplacesColumn : Obligations.DataWriteReplacesColumn := by
  intro s t k v hb
  refine ⟨fun h => ⟨unpack s.state k v, ?_, unpack_idx s.state k v⟩,
    fun h => ⟨unpack s.key k v, ?_, unpack_idx s.key k v⟩⟩
  · rw [step_of_hostTakes_write h (regAt_state k), writeReg,
      dataWrite_of_not_busy ((hostTakes_answered_busy h _).trans hb), ← hostTakes_state h]
    rfl
  · rw [step_of_hostTakes_write h (regAt_key k), writeReg,
      dataWrite_of_not_busy ((hostTakes_answered_busy h _).trans hb), ← hostTakes_key h]
    rfl

/-- Settles O37: while BUSY = 1 a data write is the command error, whatever it would have performed. -/
theorem dataWriteWhileBusyRejected : Obligations.DataWriteWhileBusyRejected := by
  rintro s t k v hb (h | h)
  · rw [step_of_hostTakes_write h (regAt_state k), writeReg,
      dataWrite_of_busy ((hostTakes_answered_busy h _).trans hb)]
    rfl
  · rw [step_of_hostTakes_write h (regAt_key k), writeReg,
      dataWrite_of_busy ((hostTakes_answered_busy h _).trans hb)]
    rfl

/-! STATUS -/

/-- A field of STATUS below bit 16 is that field of the sixteen status bits. -/
theorem statusWord_extract_low (s : State) {i n : Nat} (h : i + n ≤ 16) :
    s.statusWord.extractLsb' i n = s.statusBits.extractLsb' i n :=
  BitVec.extractLsb'_setWidth_of_le (by omega)

theorem statusWord_extract_high (s : State) : s.statusWord.extractLsb' 16 16 = 0#16 := by
  apply BitVec.eq_of_getLsbD_eq
  intro i hi
  simp [State.statusWord]

/-- The layout of the sixteen status bits (20_memory.md R59). -/
theorem statusBits_fields (s : State) :
    s.statusBits.extractLsb' 0 1 = BitVec.ofBool s.busy ∧ s.statusBits.extractLsb' 1 1 = BitVec.ofBool s.isDone
      ∧ s.statusBits.extractLsb' 2 1 = BitVec.ofBool s.err ∧ s.statusBits.extractLsb' 3 1 = 0#1
      ∧ s.statusBits.extractLsb' 4 3 = s.errCode ∧ s.statusBits.extractLsb' 7 1 = 0#1
      ∧ s.statusBits.extractLsb' 8 2 = s.seq.code ∧ s.statusBits.extractLsb' 10 2 = 0#2
      ∧ s.statusBits.extractLsb' 12 4 = s.rnd := by
  refine ⟨?_, ?_, ?_, ?_, ?_, ?_, ?_, ?_, ?_⟩ <;>
  · apply BitVec.eq_of_getLsbD_eq
    intro i hi
    simp only [State.statusBits, BitVec.getLsbD_extractLsb', BitVec.getLsbD_append, hi, decide_true, Bool.true_and]
    interval_cases i <;> rfl

theorem statusWrite_of_bit_two {v : Word} (hv : v.getLsbD 2 = true) (s : State) : statusWrite v s = s.clearError :=
  if_pos hv

theorem statusWrite_of_not_bit_two {v : Word} (hv : v.getLsbD 2 = false) (s : State) : statusWrite v s = s :=
  if_neg (by rw [hv]; exact Bool.false_ne_true)

/-- Settles O39: the read by the layout of the status bits, the write by its bit 2. -/
theorem statusReadsAndClears : Obligations.StatusReadsAndClears := by
  refine ⟨fun s t h => ⟨s.statusWord, ?_, ?_⟩, fun s t v h => ⟨fun hv => ?_, fun hv => ?_⟩⟩
  · rw [step_of_hostTakes_read h rfl, readReg, hostTakes_statusWord h]
    rfl
  · obtain ⟨hbusy, hdone, herr, hz3, hcode, hz7, hseq, hz10, hrnd⟩ := statusBits_fields s
    simp only [statusWord_extract_low s, Nat.reduceAdd, Nat.reduceLeDiff]
    exact ⟨hbusy, hdone, herr, hz3, hcode, hz7, hseq, hz10, hrnd, statusWord_extract_high s⟩
  · rw [step_of_hostTakes_write h rfl, writeReg, statusWrite_of_bit_two hv]
    rfl
  · rw [step_of_hostTakes_write h rfl, writeReg, statusWrite_of_not_bit_two hv]
    rfl

/-! RESULT and CTRL -/

/-- No core step writes RESULT (20_memory.md R60). -/
theorem coreStep_result {s t : State} (h : coreStep s = .next t) : t.result = s.result := by
  rcases coreStep_cases h with ⟨-, rfl⟩ | ⟨-, rfl⟩ | ⟨-, j, -, rfl⟩
  · rfl
  · exact State.initialStep_result s
  · exact State.roundStep_result s j

/-- The `zext_32` of a byte, written as a concatenation (20_memory.md R60). -/
theorem setWidth_byte (b : Byte) : b.setWidth 32 = 0#24 ++ b := BitVec.setWidth_eq_append (by omega)

/-- Settles O40: `readReg` and `writeReg` on RESULT, and RESULT's frame of a core step. -/
theorem resultReadsAndIgnoresWrites : Obligations.ResultReadsAndIgnoresWrites := by
  intro s t
  refine ⟨fun h => ?_, fun v h => ?_, coreStep_result⟩
  · rw [step_of_hostTakes_read h rfl, readReg, setWidth_byte, ← hostTakes_result h]
    rfl
  · rw [step_of_hostTakes_write h rfl]
    rfl

/-- Settles O41: CTRL's read is the constant 0, and its write is `ctrlWrite` of the answered state. -/
theorem ctrlReadsZeroAndKeepsNothing : Obligations.CtrlReadsZeroAndKeepsNothing := by
  intro s t
  refine ⟨fun h => ?_, fun v h => ?_⟩
  · rw [step_of_hostTakes_read h rfl]
    rfl
  · rw [step_of_hostTakes_write h rfl]
    rfl

end Sys2Proof.Machine
end

section
/-! SUPPORT. The decoder and the encoder (30_encoding.md R80 to R86, R90, R93): a word as the concatenation of its fields,
what a word can decode to, said once, and that decoding and encoding are inverse to each other. -/

namespace Sys2Proof

/-! The five fields of a word -/

/-- The word with the given fields (30_encoding.md R80). -/
def fieldsWord (rsv : BitVec 14) (b : BitVec 2) (a : Byte) (j op : BitVec 4) : Word := rsv ++ b ++ a ++ j ++ op

section
variable (rsv : BitVec 14) (b : BitVec 2) (a : Byte) (j op : BitVec 4)

/-- Every field above OP is a field of the upper 28 bits. -/
theorem extract_fieldsWord {start len : Nat} (h : 4 ≤ start) :
    (fieldsWord rsv b a j op).extractLsb' start len = (rsv ++ b ++ a ++ j).extractLsb' (start - 4) len :=
  BitVec.extractLsb'_append_eq_of_le h

@[simp] theorem opField_fieldsWord : opField (fieldsWord rsv b a j op) = op :=
  BitVec.extractLsb'_append_eq_right

@[simp] theorem ridxField_fieldsWord : ridxField (fieldsWord rsv b a j op) = j :=
  (extract_fieldsWord rsv b a j op (by omega)).trans BitVec.extractLsb'_append_eq_right

@[simp] theorem aField_fieldsWord : aField (fieldsWord rsv b a j op) = a :=
  (extract_fieldsWord rsv b a j op (by omega)).trans
    ((BitVec.extractLsb'_append_eq_of_le (by omega)).trans BitVec.extractLsb'_append_eq_right)

@[simp] theorem bField_fieldsWord : bField (fieldsWord rsv b a j op) = b :=
  (extract_fieldsWord rsv b a j op (by omega)).trans
    ((BitVec.extractLsb'_append_eq_of_le (by omega)).trans
      ((BitVec.extractLsb'_append_eq_of_le (by omega)).trans BitVec.extractLsb'_append_eq_right))

end

/-- Every word is made of its fields. -/
theorem fieldsWord_fields (v : Word) :
    fieldsWord (Machine.rsvField v) (bField v) (aField v) (ridxField v) (opField v) = v := by
  simp only [fieldsWord, Machine.rsvField, bField, aField, ridxField, opField]
  iterate 4 rw [BitVec.extractLsb'_append_extractLsb'_eq_extractLsb' (by rfl)]
  exact BitVec.extractLsb'_eq_self

theorem fieldsWord_and (rsv rsv' : BitVec 14) (b b' : BitVec 2) (a a' : Byte) (j j' op op' : BitVec 4) :
    fieldsWord rsv b a j op &&& fieldsWord rsv' b' a' j' op' =
      fieldsWord (rsv &&& rsv') (b &&& b') (a &&& a') (j &&& j') (op &&& op') := by
  apply BitVec.eq_of_getLsbD_eq
  intro i hi
  simp only [fieldsWord, BitVec.getLsbD_and, BitVec.getLsbD_append]
  split_ifs <;> rfl

/-! The bits an opcode may set (30_encoding.md R83) -/

/-- A word of opcode `op` under its mask keeps OP and the fields that `op` uses. -/
theorem fieldsWord_and_usedMask (rsv : BitVec 14) (b : BitVec 2) (a : Byte) (j op : BitVec 4) :
    fieldsWord rsv b a j op &&& usedMask op =
      fieldsWord 0#14 (if op = 0x4#4 then b else 0#2) (if op = 0x1#4 ∨ op = 0x4#4 then a else 0#8)
        (if op = 0x6#4 ∨ op = 0x8#4 then j else 0#4) op := by
  have hmask : usedMask op = fieldsWord 0#14 (if op = 0x4#4 then BitVec.allOnes 2 else 0#2)
      (if op = 0x1#4 ∨ op = 0x4#4 then BitVec.allOnes 8 else 0#8)
      (if op = 0x6#4 ∨ op = 0x8#4 then BitVec.allOnes 4 else 0#4) (BitVec.allOnes 4) := by
    revert op; decide
  simp only [hmask, fieldsWord_and, BitVec.and_zero, apply_ite, BitVec.and_allOnes]

/-- No bit outside the mask is set exactly if the mask keeps the word. -/
theorem and_not_eq_zero_iff {w : Nat} {x m : BitVec w} : x &&& ~~~m = 0#w ↔ x &&& m = x := by
  constructor
  · intro h
    calc x &&& m = (x &&& m) ||| (x &&& ~~~m) := by rw [h, BitVec.or_zero]
      _ = x &&& (m ||| ~~~m) := BitVec.and_or_distrib_left.symm
      _ = x := by rw [BitVec.or_not_self, BitVec.and_allOnes]
  · intro h
    rw [← h, BitVec.and_assoc, BitVec.and_not_self]
    exact BitVec.and_zero

/-! The words of the commands with operands: by fields (30_encoding.md R80, R90), and as R93 writes them -/

theorem encode_sbox (a : Byte) : encode (.sbox a) = fieldsWord 0#14 0#2 a 0#4 0x1#4 := by
  revert a; decide

theorem encode_gfmul (a : Byte) (b : BitVec 2) : encode (.gfmul a b) = fieldsWord 0#14 b a 0#4 0x4#4 := by
  revert a b; decide +kernel

theorem encode_keystep (j : BitVec 4) : encode (.keystep j) = fieldsWord 0#14 0#2 0#8 j 0x6#4 := by
  revert j; decide

theorem encode_round (j : BitVec 4) : encode (.round j) = fieldsWord 0#14 0#2 0#8 j 0x8#4 := by
  revert j; decide

theorem encode_gfmul_eq_append (a : Byte) (b : BitVec 2) : encode (.gfmul a b) = 0#14 ++ b ++ a ++ 0x04#8 :=
  (encode_gfmul a b).trans (BitVec.append_assoc (x₁ := 0#14 ++ b ++ a) (x₂ := 0#4) (x₃ := 0x4#4))

theorem encode_sbox_eq_append (a : Byte) : encode (.sbox a) = 0#16 ++ a ++ 0x01#8 :=
  (encode_sbox a).trans (BitVec.append_assoc (x₁ := 0#16 ++ a) (x₂ := 0#4) (x₃ := 0x1#4))

theorem encode_keystep_eq_append (j : BitVec 4) : encode (.keystep j) = 0#24 ++ j ++ 0x6#4 := encode_keystep j

theorem encode_round_eq_append (j : BitVec 4) : encode (.round j) = 0#24 ++ j ++ 0x8#4 := encode_round j

/-! Which commands with a round index are well-formed (30_encoding.md R85) -/

@[simp] theorem wf_keystep {j : BitVec 4} : (Instr.keystep j).wf = true ↔ j.toNat ≤ 9 := decide_eq_true_iff

@[simp] theorem wf_round {j : BitVec 4} : (Instr.round j).wf = true ↔ j.toNat ≤ 9 := decide_eq_true_iff

/-! The opcode map (30_encoding.md R82) against the encoder -/

theorem instrOf_eq_none_iff {op j : BitVec 4} {a : Byte} {b : BitVec 2} :
    instrOf op j a b = none ↔ 0xA ≤ op.toNat := by
  unfold instrOf
  split_ifs <;> simp only [false_iff, true_iff] <;> bv_omega

/-- The command that the opcode map gives is encoded from the opcode and the fields it uses. -/
theorem encode_of_instrOf {op j : BitVec 4} {a : Byte} {b : BitVec 2} {i : Instr} (h : instrOf op j a b = some i) :
    encode i = fieldsWord 0#14 (if op = 0x4#4 then b else 0#2) (if op = 0x1#4 ∨ op = 0x4#4 then a else 0#8)
      (if op = 0x6#4 ∨ op = 0x8#4 then j else 0#4) op := by
  unfold instrOf at h
  split_ifs at h <;> cases h <;> subst op <;>
    simp only [BitVec.reduceEq, reduceIte, or_self, or_true, true_or]
  · rfl
  · exact encode_sbox a
  · rfl
  · rfl
  · exact encode_gfmul a b
  · rfl
  · exact encode_keystep j
  · rfl
  · exact encode_round j
  · rfl

/-- The command that the opcode map reads from a word: the decoder's first check. -/
def wordInstr (v : Word) : Option Instr := instrOf (opField v) (ridxField v) (aField v) (bField v)

theorem encode_of_wordInstr {v : Word} {i : Instr} (h : wordInstr v = some i) :
    encode i = v &&& usedMask (opField v) := by
  rw [encode_of_instrOf h, ← fieldsWord_and_usedMask (Machine.rsvField v), fieldsWord_fields]

theorem wordInstr_encode (i : Instr) : wordInstr (encode i) = some i := by
  unfold wordInstr
  cases i with
  | sbox a => simp [encode_sbox, instrOf]
  | gfmul a b => simp [encode_gfmul, instrOf]
  | keystep j => simp [encode_keystep, instrOf]
  | round j => simp [encode_round, instrOf]
  | nop | subbytes | shiftrows | mixcolumns | addkey | encrypt => rfl

/-! The decoder's verdict -/

/-- The decoder by the command that the opcode map reads. -/
theorem decodeWord_of_wordInstr {v : Word} {i : Instr} (h : wordInstr v = some i) :
    decodeWord v = if v &&& ~~~(usedMask (opField v)) ≠ 0#32 then .illegal .rsvdBits
      else if i.wf then .legal i else .illegal .badRidx := by
  unfold wordInstr at h
  simp only [decodeWord, h]

/-- What a word can decode to: one case for each check of `Decode` (30_encoding.md R86). -/
theorem decodeWord_cases (v : Word) :
    (0xA ≤ (opField v).toNat ∧ decodeWord v = .illegal .rsvdOp) ∨
    ((opField v).toNat ≤ 9 ∧ v &&& ~~~(usedMask (opField v)) ≠ 0#32 ∧ decodeWord v = .illegal .rsvdBits) ∨
    ((opField v).toNat ≤ 9 ∧ v &&& ~~~(usedMask (opField v)) = 0#32 ∧
      ∃ i, encode i = v ∧ decodeWord v = if i.wf then .legal i else .illegal .badRidx) := by
  cases h : wordInstr v with
  | none =>
    refine .inl ⟨instrOf_eq_none_iff.1 h, ?_⟩
    unfold wordInstr at h
    simp only [decodeWord, h]
  | some i =>
    have hop : (opField v).toNat ≤ 9 := by
      by_contra hgt
      have hnone : wordInstr v = none := instrOf_eq_none_iff.2 (by omega)
      rw [h] at hnone
      cases hnone
    have hd := decodeWord_of_wordInstr h
    by_cases hm : v &&& ~~~(usedMask (opField v)) = 0#32
    · rw [if_neg (not_not_intro hm)] at hd
      exact .inr (.inr ⟨hop, hm, i, (encode_of_wordInstr h).trans (and_not_eq_zero_iff.1 hm), hd⟩)
    · rw [if_pos hm] at hd
      exact .inr (.inl ⟨hop, hm, hd⟩)

/-- An encoded command passes every check but that of the round index. -/
theorem decodeWord_encode (i : Instr) : decodeWord (encode i) = if i.wf then .legal i else .illegal .badRidx := by
  have h := wordInstr_encode i
  rw [decodeWord_of_wordInstr h, if_neg (not_not_intro (and_not_eq_zero_iff.2 (encode_of_wordInstr h).symm))]

theorem decodeWord_encode_of_wf {i : Instr} (h : i.wf = true) : decodeWord (encode i) = .legal i := by
  rw [decodeWord_encode, if_pos h]

/-- The legal words are the encoded well-formed commands (30_encoding.md R83). -/
theorem decodeWord_eq_legal_iff {v : Word} {i : Instr} : decodeWord v = .legal i ↔ i.wf = true ∧ encode i = v := by
  constructor
  · intro h
    rcases decodeWord_cases v with ⟨-, hd⟩ | ⟨-, -, hd⟩ | ⟨-, -, i', hv, hd⟩
    · rw [hd] at h; cases h
    · rw [hd] at h; cases h
    · rw [hd] at h
      split_ifs at h with hwf
      cases h
      exact ⟨hwf, hv⟩
  · rintro ⟨hwf, rfl⟩
    exact decodeWord_encode_of_wf hwf

theorem encode_injective : Function.Injective encode := by
  intro i i' h
  have := wordInstr_encode i
  rw [h, wordInstr_encode i'] at this
  exact (Option.some.inj this).symm

/-! The list of the admitted commands (30_encoding.md R93) -/

/-- All values of a field of `n` bits. -/
def fieldValues (n : Nat) : List (BitVec n) := (List.finRange (2 ^ n)).map BitVec.ofFin

@[simp] theorem mem_fieldValues {n : Nat} (x : BitVec n) : x ∈ fieldValues n :=
  List.mem_map.2 ⟨x.toFin, List.mem_finRange _, rfl⟩

theorem nodup_fieldValues (n : Nat) : (fieldValues n).Nodup :=
  (List.nodup_finRange _).map fun _ _ h => congrArg BitVec.toFin h

@[simp] theorem length_fieldValues (n : Nat) : (fieldValues n).length = 2 ^ n := by simp [fieldValues]

/-- The round indices 0 to 9 (30_encoding.md R85). -/
def roundIndices : List (BitVec 4) := (fieldValues 4).filter fun j => decide (j.toNat ≤ 9)

@[simp] theorem mem_roundIndices {j : BitVec 4} : j ∈ roundIndices ↔ j.toNat ≤ 9 := by simp [roundIndices]

@[simp] theorem length_roundIndices : roundIndices.length = 10 := by decide

/-- The commands with no operand, which have one word each. -/
def plainCommands : List Instr := [.nop, .subbytes, .shiftrows, .mixcolumns, .addkey, .encrypt]

/-- The admitted commands, in the order of 30_encoding.md R93. -/
def admittedCommands : List Instr :=
  plainCommands ++ (roundIndices.map .keystep ++ roundIndices.map .round) ++ (fieldValues 8).map .sbox
    ++ (fieldValues 8 ×ˢ fieldValues 2).map fun p => .gfmul p.1 p.2

theorem mem_admittedCommands {i : Instr} : i ∈ admittedCommands ↔ i.wf = true := by
  cases i with
  | keystep j => simp [admittedCommands, plainCommands]
  | round j => simp [admittedCommands, plainCommands]
  | sbox a => simp [admittedCommands, Instr.wf]
  | gfmul a b => simp [admittedCommands, Instr.wf]
  | nop | subbytes | shiftrows | mixcolumns | addkey | encrypt => simp [admittedCommands, plainCommands, Instr.wf]

/-- The sum of 30_encoding.md R93: 6 + 20 + 256 + 1024. -/
theorem length_admittedCommands : admittedCommands.length = 1306 := by
  simp [admittedCommands, plainCommands, List.length_product]

theorem nodup_admittedCommands : admittedCommands.Nodup := by
  have hplain : plainCommands.Nodup := by decide
  have hindices : roundIndices.Nodup := (nodup_fieldValues 4).filter _
  have hkeystep : (roundIndices.map Instr.keystep).Nodup := hindices.map fun _ _ h => Instr.keystep.inj h
  have hround : (roundIndices.map Instr.round).Nodup := hindices.map fun _ _ h => Instr.round.inj h
  have hsbox : ((fieldValues 8).map Instr.sbox).Nodup := (nodup_fieldValues 8).map fun _ _ h => Instr.sbox.inj h
  have hgfmul : ((fieldValues 8 ×ˢ fieldValues 2).map fun p => Instr.gfmul p.1 p.2).Nodup :=
    ((nodup_fieldValues 8).product (nodup_fieldValues 2)).map fun _ _ h =>
      Prod.ext (Instr.gfmul.inj h).1 (Instr.gfmul.inj h).2
  refine (((hplain.append (hkeystep.append hround ?_) ?_).append hsbox ?_).append hgfmul ?_) <;>
    simp [List.Disjoint, plainCommands, or_imp, forall_and]

/-! The words of the admitted commands, form by form (30_encoding.md R93) -/

/-- The word has one of the forms that R93 lists. -/
def AdmittedForm (v : Word) : Prop :=
  v ∈ [0x00000000#32, 0x00000002#32, 0x00000003#32, 0x00000005#32, 0x00000007#32, 0x00000009#32]
    ∨ (∃ j : BitVec 4, j.toNat ≤ 9 ∧ (v = 0#24 ++ j ++ 0x6#4 ∨ v = 0#24 ++ j ++ 0x8#4))
    ∨ (∃ a : Byte, v = 0#16 ++ a ++ 0x01#8)
    ∨ ∃ (a : Byte) (b : BitVec 2), v = 0#14 ++ b ++ a ++ 0x04#8

theorem encode_plainCommands : plainCommands.map encode =
    [0x00000000#32, 0x00000002#32, 0x00000003#32, 0x00000005#32, 0x00000007#32, 0x00000009#32] := rfl

theorem admittedForm_encode {i : Instr} (hwf : i.wf = true) : AdmittedForm (encode i) := by
  cases i with
  | sbox a => exact .inr (.inr (.inl ⟨a, encode_sbox_eq_append a⟩))
  | gfmul a b => exact .inr (.inr (.inr ⟨a, b, encode_gfmul_eq_append a b⟩))
  | keystep j => exact .inr (.inl ⟨j, wf_keystep.1 hwf, .inl (encode_keystep_eq_append j)⟩)
  | round j => exact .inr (.inl ⟨j, wf_round.1 hwf, .inr (encode_round_eq_append j)⟩)
  | nop | subbytes | shiftrows | mixcolumns | addkey | encrypt => exact .inl (by decide)

theorem legal_of_admittedForm {v : Word} (h : AdmittedForm v) : ∃ i, decodeWord v = .legal i := by
  rcases h with h | ⟨j, hj, rfl | rfl⟩ | ⟨a, rfl⟩ | ⟨a, b, rfl⟩
  · rw [← encode_plainCommands] at h
    obtain ⟨i, hi, rfl⟩ := List.mem_map.1 h
    have hwf : i.wf = true := mem_admittedCommands.1 (by simp [admittedCommands, hi])
    exact ⟨i, decodeWord_encode_of_wf hwf⟩
  · exact ⟨.keystep j, decodeWord_eq_legal_iff.2 ⟨wf_keystep.2 hj, encode_keystep_eq_append j⟩⟩
  · exact ⟨.round j, decodeWord_eq_legal_iff.2 ⟨wf_round.2 hj, encode_round_eq_append j⟩⟩
  · exact ⟨.sbox a, decodeWord_eq_legal_iff.2 ⟨rfl, encode_sbox_eq_append a⟩⟩
  · exact ⟨.gfmul a b, decodeWord_eq_legal_iff.2 ⟨rfl, encode_gfmul_eq_append a b⟩⟩

theorem legal_iff_admittedForm (v : Word) : (∃ i, decodeWord v = .legal i) ↔ AdmittedForm v := by
  refine ⟨?_, legal_of_admittedForm⟩
  rintro ⟨i, hi⟩
  obtain ⟨hwf, rfl⟩ := decodeWord_eq_legal_iff.1 hi
  exact admittedForm_encode hwf

/-- The words of the admitted commands are the legal ones. -/
theorem mem_admittedWords {v : Word} : v ∈ admittedCommands.map encode ↔ ∃ i, decodeWord v = .legal i := by
  simp only [List.mem_map, mem_admittedCommands, decodeWord_eq_legal_iff]

/-- A rejected word gets the code of the first check of `Decode` that fails (30_encoding.md R86). -/
theorem decodeWord_of_not_legal {v : Word} (h : ∀ i, decodeWord v ≠ .legal i) :
    decodeWord v = .illegal (if 0xA ≤ (opField v).toNat then .rsvdOp
      else if v &&& ~~~(usedMask (opField v)) ≠ 0#32 then .rsvdBits else .badRidx) := by
  rcases decodeWord_cases v with ⟨hop, hd⟩ | ⟨hop, hm, hd⟩ | ⟨hop, hm, i, -, hd⟩
  · rw [hd, if_pos hop]
  · rw [hd, if_neg (by omega), if_pos hm]
  · rw [if_neg (by omega), if_neg (not_not_intro hm)]
    split_ifs at hd with hwf
    · exact absurd hd (h i)
    · exact hd

/-- Settles O5: the forms, the count by the list of the admitted commands, and the decoder's checks in their order. -/
theorem admittedWordsExactly : Obligations.AdmittedWordsExactly :=
  ⟨legal_iff_admittedForm,
    ⟨admittedCommands.map encode, nodup_admittedCommands.map encode_injective,
      (List.length_map ..).trans length_admittedCommands, fun _ => mem_admittedWords⟩,
    fun _ => decodeWord_of_not_legal⟩

end Sys2Proof
end

section
/-! SUPPORT. The dispatch of a CTRL write (30_encoding.md R87), the words it rejects (R83 to R85), and what a primitive command
completes with (R92). -/

namespace Sys2Proof.Machine

/-! A CTRL write, case by case -/

theorem ctrlWrite_of_busy {s : State} (hb : s.busy = true) (v : Word) : ctrlWrite v s = .next (s.cmdError .busyCmd) :=
  if_pos hb

theorem ctrlWrite_of_illegal {s : State} {v : Word} {e : CmdErr} (hb : s.busy = false) (hd : decodeWord v = .illegal e) :
    ctrlWrite v s = .next (s.cmdError e) := by
  simp [ctrlWrite, hb, hd]

theorem ctrlWrite_of_legal {s : State} {v : Word} {i : Instr} (hb : s.busy = false) (hd : decodeWord v = .legal i) :
    ctrlWrite v s = exec i s := by
  simp [ctrlWrite, hb, hd]

/-- Settles O11: the step of a write at offset 0 is `ctrlWrite` of the answered state, whose BUSY is that of `s`. -/
theorem ctrlWriteIsDispatched : Obligations.CtrlWriteIsDispatched := by
  intro s t v h
  have hstep : step s = ctrlWrite v (t.answered .written) := step_of_hostTakes_write h rfl
  have hbusy : (t.answered .written).busy = s.busy := hostTakes_answered_busy h .written
  rw [hstep]
  exact ⟨fun hb => ctrlWrite_of_busy (hbusy.trans hb) v,
    fun e hb hd => ctrlWrite_of_illegal (hbusy.trans hb) hd,
    fun i hb hd => ctrlWrite_of_legal (hbusy.trans hb) hd⟩

/-! The rejected words -/

theorem decodeWord_of_reserved_opcode {v : Word} (h : 0xA ≤ (opField v).toNat) : decodeWord v = .illegal .rsvdOp := by
  rcases decodeWord_cases v with ⟨-, hd⟩ | ⟨hop, -⟩ | ⟨hop, -⟩
  · exact hd
  · omega
  · omega

theorem decodeWord_of_unused_bit {v : Word} (hop : (opField v).toNat ≤ 9)
    (hm : v &&& ~~~(usedMask (opField v)) ≠ 0#32) : decodeWord v = .illegal .rsvdBits := by
  rcases decodeWord_cases v with ⟨hop', -⟩ | ⟨-, -, hd⟩ | ⟨-, hm', -⟩
  · omega
  · exact hd
  · exact absurd hm' hm

/-- The word of a command that is not well-formed, which can only have a round index above 9. -/
theorem decodeWord_of_not_wf {v : Word} {i : Instr} (hv : encode i = v) (h : ¬ i.wf = true) :
    decodeWord v = .illegal .badRidx := by
  rw [← hv, decodeWord_encode, if_neg h]

/-- Settles O7: the decoder's first check. -/
theorem reservedOpcodeRejected : Obligations.ReservedOpcodeRejected := fun _ _ h =>
  have hd := decodeWord_of_reserved_opcode h
  ⟨hd, rfl, fun hb => ctrlWrite_of_illegal hb hd⟩

/-- Settles O8: the decoder's second check, the sixteen masks, and that a legal word is its command's encoding. -/
theorem unusedBitRejected : Obligations.UnusedBitRejected := by
  refine ⟨fun v hop hm => ?_, by decide, fun v v' i h h' => ?_⟩
  · have hd := decodeWord_of_unused_bit hop hm
    exact ⟨hd, rfl, fun s hb => ctrlWrite_of_illegal hb hd⟩
  · obtain ⟨-, hv⟩ := decodeWord_eq_legal_iff.1 h
    obtain ⟨-, hv'⟩ := decodeWord_eq_legal_iff.1 h'
    exact hv.symm.trans hv'

theorem exec_keystep_of_gt {s : State} {j : BitVec 4} (hb : s.busy = false) (hj : 9 < j.toNat) :
    exec (.keystep j) s = .next (s.cmdError .badRidx) := by
  simp only [exec, execKeystep]
  rw [whenNotBusy_of_not_busy hb, withRoundIndex_of_gt s hj]

theorem exec_round_of_gt {s : State} {j : BitVec 4} (hb : s.busy = false) (hj : 9 < j.toNat) :
    exec (.round j) s = .next (s.cmdError .badRidx) := by
  simp only [exec, execRound]
  rw [whenNotBusy_of_not_busy hb, withRoundIndex_of_gt s hj]

/-- Settles O9: the decoder's last check, and the same check by the commands. -/
theorem badRoundIndexRejected : Obligations.BadRoundIndexRejected := by
  intro j s hj
  have hkeystep := decodeWord_of_not_wf (encode_keystep_eq_append j) (by rw [wf_keystep]; omega)
  have hround := decodeWord_of_not_wf (encode_round_eq_append j) (by rw [wf_round]; omega)
  exact ⟨hkeystep, hround, rfl,
    fun hb => ⟨ctrlWrite_of_illegal hb hkeystep, ctrlWrite_of_illegal hb hround⟩,
    fun hb => ⟨exec_keystep_of_gt hb hj, exec_round_of_gt hb hj⟩⟩

/-! Completion -/

/-- A primitive command completes a state in which it has written data registers only. -/
theorem performs_primitive {s t : State} {i : Instr} (h : Performs s i t) (hi : i ≠ .encrypt) :
    ∃ u : State, t = u.complete ∧ u.rnd = s.rnd ∧ u.err = s.err ∧ u.errCode = s.errCode := by
  cases h with
  | nop | sbox | gfmul => exact ⟨_, rfl, rfl, rfl, rfl⟩
  | subbytes => exact ⟨_, rfl, s.subBytes_rnd, s.subBytes_err, s.subBytes_errCode⟩
  | shiftrows => exact ⟨_, rfl, s.shiftRows_rnd, s.shiftRows_err, s.shiftRows_errCode⟩
  | mixcolumns => exact ⟨_, rfl, s.mixColumns_rnd, s.mixColumns_err, s.mixColumns_errCode⟩
  | keystep j r => exact ⟨_, rfl, s.keyStep_rnd r, s.keyStep_err r, s.keyStep_errCode r⟩
  | addkey => exact ⟨_, rfl, s.addRoundKey_rnd, s.addRoundKey_err, s.addRoundKey_errCode⟩
  | round j r => exact ⟨_, rfl, s.applyRound_rnd r, s.applyRound_err r, s.applyRound_errCode r⟩
  | encrypt => exact absurd rfl hi

/-- Settles O24: a primitive command ends in `State.complete`, ENCRYPT in `State.startEncrypt`. -/
theorem primitiveCompletesAtOnce : Obligations.PrimitiveCompletesAtOnce := by
  refine ⟨fun i s hwf hi hb => ?_, fun s hb => ?_⟩
  · obtain ⟨t, ht⟩ := performs_of_wf s hwf
    obtain ⟨u, rfl, hrnd, herr, hcode⟩ := performs_primitive ht hi
    exact ⟨u.complete, exec_of_performs hb ht, rfl, rfl, rfl,
      u.complete_rnd.trans hrnd, u.complete_err.trans herr, u.complete_errCode.trans hcode⟩
  · exact ⟨s.startEncrypt, exec_of_performs hb .encrypt, rfl, rfl, rfl⟩

end Sys2Proof.Machine
end

section
/-! SUPPORT. What every command shares: its rejection while BUSY (30_encoding.md R87), and the rejection of a word that sets a
field its opcode does not use (R83). -/

namespace Sys2Proof.Machine

/-- Every command checks BUSY before anything else. -/
theorem rejectedWhileBusy (i : Instr) : RejectedWhileBusy i := by
  intro s hb
  cases i <;>
    simp only [exec, execNop, execSbox, execSubbytes, execShiftrows, execGfmul, execMixcolumns, execKeystep, execAddkey,
      execRound, execEncrypt, whenNotBusy_of_busy hb]

/-- A field that the mask of the opcode leaves out must be 0. -/
theorem decodeWord_of_unused_field {v : Word} {op : BitVec 4} {start len : Nat} (hv : opField v = op) (hop : op.toNat ≤ 9)
    (hmask : (usedMask op).extractLsb' start len = 0#len) (hfield : v.extractLsb' start len ≠ 0#len) :
    decodeWord v = .illegal .rsvdBits := by
  subst hv
  refine decodeWord_of_unused_bit hop fun hm => hfield ?_
  rw [← and_not_eq_zero_iff.1 hm, BitVec.extractLsb'_and, hmask, BitVec.and_zero]

/-- The opcodes without operands use the bits of OP only. -/
theorem onlyOpcodeBits_of_usedMask {op : BitVec 4} (hop : op.toNat ≤ 9) (hmask : usedMask op = 0x0000000F#32) :
    OnlyOpcodeBits op := fun _ hv =>
  decodeWord_of_unused_field hv hop (by rw [hmask]; rfl)

end Sys2Proof.Machine
end

section
/-! SUPPORT. The substitution stage (41_substitution.md): the S-box as a function on bytes, and the commands SBOX and SUBBYTES. -/

namespace Sys2Proof.Machine

/-! The S-box -/

/-- The rows of the inverse of the S-box. The spec gives no inverse; `invSboxRom_sboxRom` ties this table to `sboxRom`. -/
def invSboxRows : Vector RomRow 16 := #v[
  0x52096ad53036a538bf40a39e81f3d7fb#128,
  0x7ce339829b2fff87348e4344c4dee9cb#128,
  0x547b9432a6c2233dee4c950b42fac34e#128,
  0x082ea16628d924b2765ba2496d8bd125#128,
  0x72f8f66486689816d4a45ccc5d65b692#128,
  0x6c704850fdedb9da5e154657a78d9d84#128,
  0x90d8ab008cbcd30af7e45805b8b34506#128,
  0xd02c1e8fca3f0f02c1afbd0301138a6b#128,
  0x3a9111414f67dcea97f2cfcef0b4e673#128,
  0x96ac7422e7ad3585e2f937e81c75df6e#128,
  0x47f11a711d29c5896fb7620eaa18be1b#128,
  0xfc563e4bc6d279209adbc0fe78cd5af4#128,
  0x1fdda8338807c731b11210592780ec5f#128,
  0x60517fa919b54a0d2de57a9f93c99cef#128,
  0xa0e03b4dae2af5b0c8ebbb3c83539961#128,
  0x172b047eba77d626e169146355210c7d#128]

/-- The byte whose S-box entry is `y`. -/
def invSboxRom (y : Byte) : Byte := romEntry invSboxRows y

theorem invSboxRom_sboxRom : Function.LeftInverse invSboxRom sboxRom := by
  unfold Function.LeftInverse
  decide +kernel

theorem sboxRom_bijective : Function.Bijective sboxRom :=
  Finite.injective_iff_bijective.1 invSboxRom_sboxRom.injective

/-- The S-box has no fixed point (41_substitution.md R103). -/
theorem sboxRom_ne_self : ∀ x : Byte, sboxRom x ≠ x := by decide +kernel

/-- Settles O45: the S-box has a left inverse, and the bytes are finitely many. -/
theorem sboxIsPermutation : Obligations.SboxIsPermutation := fun y => sboxRom_bijective.existsUnique y

/-! The commands -/

/-- SUBBYTES works byte by byte (41_substitution.md R105). -/
theorem subBytes_apply (b : Block) (i : Fin 16) : (subBytes b)[i] = sboxRom b[i] := blockOf_apply _ i

theorem State.subBytes_complete (s : State) :
    s.subBytes.complete = { s with state := Machine.subBytes s.state, seq := .done } := by
  cases s; rfl

theorem exec_subbytes_of_not_busy {s : State} (hb : s.busy = false) :
    exec .subbytes s = .next { s with state := subBytes s.state, seq := .done } := by
  rw [exec_of_performs hb .subbytes, State.subBytes_complete]

/-- Settles O15: what SBOX performs, and the fields RIDX, B and RSV outside the mask of its opcode. -/
theorem sboxLooksUpOneByte : Obligations.SboxLooksUpOneByte := by
  refine ⟨fun a s hb => exec_of_performs hb (.sbox a), fun a => ⟨rejectedWhileBusy _, encode_sbox_eq_append a⟩,
    fun v hv hfields => ?_, by decide, by decide, by decide⟩
  rcases hfields with hridx | hb | hrsv
  · exact decodeWord_of_unused_field hv (by decide) (by decide) hridx
  · exact decodeWord_of_unused_field hv (by decide) (by decide) hb
  · exact decodeWord_of_unused_field hv (by decide) (by decide) hrsv

/-- Settles O16: what SUBBYTES performs, byte by byte, and that the S-box has no fixed point. -/
theorem subbytesSubstitutesEveryByte : Obligations.SubbytesSubstitutesEveryByte := by
  refine ⟨fun s hb => ⟨subBytes s.state, exec_subbytes_of_not_busy hb, fun i => ?_⟩, rejectedWhileBusy _, rfl,
    onlyOpcodeBits_of_usedMask (by decide) (by decide)⟩
  rw [subBytes_apply]
  exact ⟨rfl, sboxRom_ne_self _⟩

end Sys2Proof.Machine
end

section
/-! SUPPORT. The row shift (42_row_shift.md): its repetition by rows and columns, and the command SHIFTROWS. -/

namespace Sys2Proof.Machine

/-! The shift of a block -/

/-- Row `r` is rotated left by `r` (42_row_shift.md R120). -/
theorem shiftRows_idx (b : Block) (r c : Fin 4) : (shiftRows b)[idx r c] = b[idx r (c + r)] := by
  simp only [shiftRows, blockOf_apply, rowOf_idx, colOf_idx]

/-- The shift done `n` times rotates row `r` left by `n * r`. -/
theorem iterate_shiftRows_idx (n : Nat) (b : Block) (r c : Fin 4) :
    (shiftRows^[n] b)[idx r c] = b[idx r (c + n • r)] := by
  induction n generalizing c with
  | zero => simp only [zero_nsmul, add_zero, Function.iterate_zero_apply]
  | succ n ih => simp only [Function.iterate_succ_apply', shiftRows_idx, ih, succ_nsmul', add_assoc]

/-- Four shifts rotate row `r` by `4 * r`, a whole number of turns (42_row_shift.md R122). -/
theorem iterate_shiftRows_four (b : Block) : shiftRows^[4] b = b := by
  have hturns : ∀ r : Fin 4, 4 • r = 0 := by decide
  refine block_ext (forall_idx fun r c => ?_)
  simp only [iterate_shiftRows_idx, hturns, add_zero]

/-! The command -/

theorem State.shiftRows_complete (s : State) :
    s.shiftRows.complete = { s with state := Machine.shiftRows s.state, seq := .done } := by
  cases s; rfl

theorem exec_shiftrows_of_not_busy {s : State} (hb : s.busy = false) :
    exec .shiftrows s = .next { s with state := shiftRows s.state, seq := .done } := by
  rw [exec_of_performs hb .shiftrows, State.shiftRows_complete]

/-- SHIFTROWS issued `n + 1` times in a row: every one but the last leaves a state that is not busy. -/
theorem execList_replicate_shiftrows (n : Nat) {s : State} (hb : s.busy = false) :
    execList (List.replicate (n + 1) .shiftrows) s =
      .next { s with state := shiftRows^[n + 1] s.state, seq := .done } := by
  induction n generalizing s with
  | zero => exact execList_cons [] (exec_shiftrows_of_not_busy hb)
  | succ n ih => exact (execList_cons _ (exec_shiftrows_of_not_busy hb)).trans (ih rfl)

/-- Settles O17: what SHIFTROWS performs, by row and column. -/
theorem shiftrowsRotatesRows : Obligations.ShiftrowsRotatesRows := by
  refine ⟨fun s hb => ⟨shiftRows s.state, exec_shiftrows_of_not_busy hb, fun r c c' hc => ?_⟩, rejectedWhileBusy _, rfl,
    onlyOpcodeBits_of_usedMask (by decide) (by decide)⟩
  have hcol : c' = c + r := Fin.ext hc
  rw [shiftRows_idx, hcol]

/-- Settles O50: four shifts are the identity on the block, and the spec's example shows that two are not. -/
theorem shiftrowsHasPeriodFour : Obligations.ShiftrowsHasPeriodFour := by
  have htwo : shiftRows (shiftRows
        #v[0x00, 0x01, 0x02, 0x03, 0x04, 0x05, 0x06, 0x07, 0x08, 0x09, 0x0a, 0x0b, 0x0c, 0x0d, 0x0e, 0x0f])
      = #v[0x00, 0x09, 0x02, 0x0b, 0x04, 0x0d, 0x06, 0x0f, 0x08, 0x01, 0x0a, 0x03, 0x0c, 0x05, 0x0e, 0x07] := by decide
  refine ⟨fun s hb => ?_, ⟨_, htwo.trans_ne (by decide)⟩, htwo⟩
  calc execList (List.replicate 4 .shiftrows) s
    _ = .next { s with state := shiftRows^[4] s.state, seq := .done } := execList_replicate_shiftrows 3 hb
    _ = .next { s with seq := .done } := by rw [iterate_shiftRows_four]

end Sys2Proof.Machine
end

section
/-! SUPPORT. The multiplier and the column mix (43_gf_column_mix.md): the multiply tables as field arithmetic, the product by a
coefficient, the mixed column, and the commands GFMUL and MIXCOLUMNS. -/

namespace Sys2Proof.Machine

/-! The multiply tables -/

theorem mul2Rom_eq_xtime : ∀ a : Byte, mul2Rom a = xtime a := by decide +kernel

theorem mul3Rom_eq_mul2Rom_xor : ∀ a : Byte, mul3Rom a = mul2Rom a ^^^ a := by decide +kernel

/-- Settles O47: each table is compared with its rule, byte by byte. -/
theorem multiplyTablesAreDerived : Obligations.MultiplyTablesAreDerived := fun a =>
  ⟨mul2Rom_eq_xtime a, mul3Rom_eq_mul2Rom_xor a⟩

/-! The product by a coefficient -/

/-- A property of the four coefficients holds of every 2-bit value. -/
theorem forall_coefficient {p : BitVec 2 → Prop} (h0 : p 0#2) (h1 : p 1#2) (h2 : p 2#2) (h3 : p 3#2) (c : BitVec 2) :
    p c :=
  match c with
  | ⟨0⟩ => h0
  | ⟨1⟩ => h1
  | ⟨2⟩ => h2
  | ⟨3⟩ => h3

theorem gfMul_zero (a : Byte) : gfMul a 0#2 = 0x00#8 := rfl

theorem gfMul_one (a : Byte) : gfMul a 1#2 = a := rfl

theorem gfMul_two (a : Byte) : gfMul a 2#2 = xtime a := mul2Rom_eq_xtime a

theorem gfMul_three (a : Byte) : gfMul a 3#2 = xtime a ^^^ a := by
  rw [← mul2Rom_eq_xtime]
  exact mul3Rom_eq_mul2Rom_xor a

/-- A bit times a byte: the coefficient of one power of `x`, 0 or 1, times a polynomial (43_gf_column_mix.md R140). -/
def bitTimes (p : Bool) (x : Byte) : Byte := if p then x else 0x00#8

theorem bitTimes_xor (p q : Bool) (x : Byte) : bitTimes (p ^^ q) x = bitTimes p x ^^^ bitTimes q x := by
  cases p <;> cases q <;> simp [bitTimes]

/-- The coefficient `b` is the polynomial `b[1]x + b[0]`. -/
theorem gfMul_eq_bitTimes (a : Byte) (b : BitVec 2) :
    gfMul a b = bitTimes (b.getLsbD 1) (xtime a) ^^^ bitTimes (b.getLsbD 0) a := by
  induction b using forall_coefficient with
  | h0 => simp [gfMul_zero, bitTimes]
  | h1 => simp [gfMul_one, bitTimes]
  | h2 => simp [gfMul_two, bitTimes]
  | h3 => simp [gfMul_three, bitTimes]

/-- The product distributes over the XOR of coefficients, bit by bit of the coefficient. -/
theorem gfMul_xor (a : Byte) (b c : BitVec 2) : gfMul a (b ^^^ c) = gfMul a b ^^^ gfMul a c := by
  simp only [gfMul_eq_bitTimes, BitVec.getLsbD_xor, bitTimes_xor]
  ac_rfl

theorem fieldMul_zero : ∀ a : Byte, fieldMul a 0x00#8 = 0x00#8 := by decide +kernel

theorem fieldMul_one : ∀ a : Byte, fieldMul a 0x01#8 = a := by decide +kernel

theorem fieldMul_two : ∀ a : Byte, fieldMul a 0x02#8 = xtime a := by decide +kernel

theorem fieldMul_three : ∀ a : Byte, fieldMul a 0x03#8 = xtime a ^^^ a := by decide +kernel

theorem gfMul_eq_fieldMul (a : Byte) (c : BitVec 2) : gfMul a c = fieldMul a (c.setWidth 8) := by
  induction c using forall_coefficient with
  | h0 => exact (fieldMul_zero a).symm
  | h1 => exact (fieldMul_one a).symm
  | h2 => exact (gfMul_two a).trans (fieldMul_two a).symm
  | h3 => exact (gfMul_three a).trans (fieldMul_three a).symm

/-- Settles O48: the product is linear in the bits of the coefficient, and agrees with the field product coefficient by
coefficient. -/
theorem gfMulIsFieldProduct : Obligations.GfMulIsFieldProduct :=
  ⟨fun a b c => (gfMul_xor a b c).symm, gfMul_two, gfMul_eq_fieldMul⟩

theorem exec_gfmul_of_not_busy (a : Byte) (b : BitVec 2) {s : State} (hb : s.busy = false) :
    exec (.gfmul a b) s = .next { s with result := gfMul a b, seq := .done } :=
  exec_of_performs hb (.gfmul a b)

/-- Settles O18: what GFMUL performs, and the fields RIDX and RSV outside the mask of its opcode. -/
theorem gfmulMultipliesByCoefficient : Obligations.GfmulMultipliesByCoefficient := by
  refine ⟨fun a s hb => ⟨exec_gfmul_of_not_busy a 0#2 hb, exec_gfmul_of_not_busy a 1#2 hb,
      exec_gfmul_of_not_busy a 2#2 hb, exec_gfmul_of_not_busy a 3#2 hb⟩,
    fun a b => ⟨rejectedWhileBusy _, encode_gfmul_eq_append a b⟩, fun v hv hfields => ?_⟩
  rcases hfields with hridx | hrsv
  · exact decodeWord_of_unused_field hv (by decide) (by decide) hridx
  · exact decodeWord_of_unused_field hv (by decide) (by decide) hrsv

/-! The column mix -/

/-- An output column is mixed from the old bytes of its own column (43_gf_column_mix.md R147). -/
theorem mixColumns_idx (b : Block) (r c : Fin 4) :
    (mixColumns b)[idx r c] = mixByte r b[idx 0 c] b[idx 1 c] b[idx 2 c] b[idx 3 c] := by
  simp only [mixColumns, blockOf_apply, rowOf_idx, colOf_idx]

/-- The four sums of a mixed column, one per row of the coefficient matrix (43_gf_column_mix.md R146, R147). -/
theorem mixByte_rows (a0 a1 a2 a3 : Byte) :
    mixByte 0 a0 a1 a2 a3 = mul2Rom a0 ^^^ mul3Rom a1 ^^^ a2 ^^^ a3
    ∧ mixByte 1 a0 a1 a2 a3 = a0 ^^^ mul2Rom a1 ^^^ mul3Rom a2 ^^^ a3
    ∧ mixByte 2 a0 a1 a2 a3 = a0 ^^^ a1 ^^^ mul2Rom a2 ^^^ mul3Rom a3
    ∧ mixByte 3 a0 a1 a2 a3 = mul3Rom a0 ^^^ a1 ^^^ a2 ^^^ mul2Rom a3 :=
  ⟨rfl, rfl, rfl, rfl⟩

theorem State.mixColumns_complete (s : State) :
    s.mixColumns.complete = { s with state := Machine.mixColumns s.state, seq := .done } := by
  cases s; rfl

theorem exec_mixcolumns_of_not_busy {s : State} (hb : s.busy = false) :
    exec .mixcolumns s = .next { s with state := mixColumns s.state, seq := .done } := by
  rw [exec_of_performs hb .mixcolumns, State.mixColumns_complete]

/-- Settles O19: what MIXCOLUMNS performs, column by column. -/
theorem mixcolumnsMixesEachColumn : Obligations.MixcolumnsMixesEachColumn := by
  refine ⟨fun s hb => ⟨mixColumns s.state, exec_mixcolumns_of_not_busy hb, fun c a0 a1 a2 a3 h0 h1 h2 h3 => ?_⟩,
    rejectedWhileBusy _, rfl, onlyOpcodeBits_of_usedMask (by decide) (by decide)⟩
  subst h0 h1 h2 h3
  simp only [mixColumns_idx]
  exact mixByte_rows _ _ _ _

end Sys2Proof.Machine
end

section
/-! SUPPORT. The key schedule (44_key_schedule.md): the round constants, the words of a stepped key, and the command KEYSTEP. -/

namespace Sys2Proof.Machine

/-! The round constants -/

theorem rcRom_eq_xtime : ∀ i j : Fin 10, j.val = i.val + 1 → rcRom j = xtime (rcRom i) := by decide

/-- Settles O49: the listed values are the table's, and each pair of neighbours is compared with the doubling law. -/
theorem roundConstantsDouble : Obligations.RoundConstantsDouble := ⟨rfl, rfl, rcRom_eq_xtime⟩

/-! The words of a stepped key -/

theorem pack_blockOfWords (n : Fin 4 → Word) (c : Fin 4) : pack (blockOfWords n) c = n c :=
  word_ext fun r => by rw [byteOf_pack, blockOfWords_apply, colOf_idx, rowOf_idx]

theorem subWord_rotWord (w : Word) :
    subWord (rotWord w) = word4 (sub (byteOf w 1)) (sub (byteOf w 2)) (sub (byteOf w 3)) (sub (byteOf w 0)) := by
  obtain ⟨h0, h1, h2, h3⟩ := byteOf_word4 (byteOf w 1) (byteOf w 2) (byteOf w 3) (byteOf w 0)
  rw [subWord, rotWord, h0, h1, h2, h3]

/-- XOR acts on a word byte by byte. -/
theorem word4_xor (a0 a1 a2 a3 b0 b1 b2 b3 : Byte) :
    word4 a0 a1 a2 a3 ^^^ word4 b0 b1 b2 b3 = word4 (a0 ^^^ b0) (a1 ^^^ b1) (a2 ^^^ b2) (a3 ^^^ b3) := by
  simp only [word4, ← BitVec.xor_append]

/-- The transformed word `t` in the bytes of the old key (44_key_schedule.md R173). -/
theorem keyTemp_pack (k : Block) (j : Fin 10) :
    keyTemp (pack k 3) j = word4 (sboxRom k[13] ^^^ rcRom j) (sboxRom k[14]) (sboxRom k[15]) (sboxRom k[12]) := by
  simp only [keyTemp, subWord_rotWord, byteOf_pack, word4_xor, BitVec.xor_zero]
  rfl

/-- The new words chain from `t` through each other (44_key_schedule.md R173). -/
theorem pack_keyStep (k : Block) (j : Fin 10) :
    pack (keyStep k j) 0 = pack k 0 ^^^ keyTemp (pack k 3) j
    ∧ pack (keyStep k j) 1 = pack (keyStep k j) 0 ^^^ pack k 1
    ∧ pack (keyStep k j) 2 = pack (keyStep k j) 1 ^^^ pack k 2
    ∧ pack (keyStep k j) 3 = pack (keyStep k j) 2 ^^^ pack k 3 := by
  simp only [keyStep, pack_blockOfWords, and_self]

/-! The command -/

theorem State.keyStep_complete (s : State) (j : Fin 10) :
    (s.keyStep j).complete = { s with key := Machine.keyStep s.key j, seq := .done } := by
  cases s; rfl

theorem exec_keystep_of_not_busy {s : State} {j : BitVec 4} {r : Fin 10} (hb : s.busy = false) (hj : j.toNat = r.val) :
    exec (.keystep j) s = .next { s with key := keyStep s.key r, seq := .done } := by
  rw [exec_of_performs hb (.keystep j r hj), State.keyStep_complete]

/-- Settles O20: what KEYSTEP performs, word by word, and the fields A, B and RSV outside the mask of its opcode. -/
theorem keystepAdvancesKey : Obligations.KeystepAdvancesKey := by
  refine ⟨fun j r s hb hj => ⟨keyStep s.key r, exec_keystep_of_not_busy hb hj, ?_⟩,
    fun j s hb hj => exec_keystep_of_gt hb hj, fun j => ⟨rejectedWhileBusy _, encode_keystep_eq_append j⟩,
    fun v hv hfields => ?_⟩
  · obtain ⟨h0, hchain⟩ := pack_keyStep s.key r
    exact ⟨by rw [h0, keyTemp_pack, word4], hchain⟩
  · rcases hfields with ha | hb | hrsv
    · exact decodeWord_of_unused_field hv (by decide) (by decide) ha
    · exact decodeWord_of_unused_field hv (by decide) (by decide) hb
    · exact decodeWord_of_unused_field hv (by decide) (by decide) hrsv

end Sys2Proof.Machine
end

section
/-! SUPPORT. The sequencer's commands and core steps (45_round_sequencer.md R190 to R197): key addition, one round as a function
on blocks, and what ADDKEY, ROUND and the core steps in INITIAL and ROUND make of the state. -/

namespace Sys2Proof.Machine

/-! Key addition -/

theorem addRoundKey_apply (b k : Block) (i : Fin 16) : (addRoundKey b k)[i] = b[i] ^^^ k[i] := blockOf_apply _ i

/-- XOR is its own inverse (45_round_sequencer.md R191). -/
theorem addRoundKey_addRoundKey (b k : Block) : addRoundKey (addRoundKey b k) k = b :=
  block_ext fun i => by simp only [addRoundKey_apply, BitVec.xor_assoc, BitVec.xor_self, BitVec.xor_zero]

theorem State.addRoundKey_complete (s : State) :
    s.addRoundKey.complete = { s with state := Machine.addRoundKey s.state s.key, seq := .done } := by
  cases s; rfl

theorem exec_addkey_of_not_busy {s : State} (hb : s.busy = false) :
    exec .addkey s = .next { s with state := addRoundKey s.state s.key, seq := .done } := by
  rw [exec_of_performs hb .addkey, State.addRoundKey_complete]

/-! One round -/

/-- What round `j` makes of the block `b` under the key `k` that it finds; the key itself it steps to `keyStep k j`. -/
def roundBlock (b k : Block) (j : Fin 10) : Block :=
  addRoundKey (if j ≠ 9 then mixColumns (shiftRows (subBytes b)) else shiftRows (subBytes b)) (keyStep k j)

theorem State.applyRound_eq (s : State) (j : Fin 10) :
    s.applyRound j = { s with state := roundBlock s.state s.key j, key := Machine.keyStep s.key j } :=
  State.ext (s.applyRound_state j) (s.applyRound_key j) (s.applyRound_result j) (s.applyRound_seq j) (s.applyRound_rnd j)
    (s.applyRound_err j) (s.applyRound_errCode j) (s.applyRound_draws j) (s.applyRound_host j) (s.applyRound_turns j)
    (s.applyRound_answer j)

theorem exec_round_of_not_busy {s : State} {j : BitVec 4} {r : Fin 10} (hb : s.busy = false) (hj : j.toNat = r.val) :
    exec (.round j) s = .next { s with state := roundBlock s.state s.key r, key := keyStep s.key r, seq := .done } := by
  rw [exec_of_performs hb (.round j r hj), State.applyRound_eq]
  rfl

/-- The last round index, as a number and as a 4-bit field. -/
theorem roundIndex_last_iff {j : BitVec 4} {r : Fin 10} (hj : j.toNat = r.val) : r = 9 ↔ j = 9#4 := by
  rw [BitVec.toNat_eq, hj, Fin.ext_iff]
  rfl

/-! The core steps -/

theorem coreStep_initial {s : State} (hs : s.seq = .initial) : coreStep s = .next s.initialStep := by
  simp only [coreStep, hs]

theorem State.initialStep_eq (s : State) :
    s.initialStep = { s with state := Machine.addRoundKey s.state s.key, seq := .round, rnd := 0#4 } := by
  cases s; rfl

theorem coreStep_round {s : State} {r : Fin 10} (hs : s.seq = .round) (hj : s.rnd.toNat = r.val) :
    coreStep s = .next (s.roundStep r) := by
  simp only [coreStep, hs, roundIndex_eq_some.2 hj]

theorem State.roundStep_eq (s : State) (j : Fin 10) :
    s.roundStep j =
      { s with
        state := roundBlock s.state s.key j
        key := Machine.keyStep s.key j
        rnd := s.rnd + 1#4
        seq := if j = 9 then .done else .round } := by
  rw [State.roundStep, State.applyRound_eq]

/-- Settles O26: the core step in INITIAL is `State.initialStep`, byte by byte. -/
theorem initialStepWhitens : Obligations.InitialStepWhitens := fun s hs =>
  ⟨addRoundKey s.state s.key, by rw [coreStep_initial hs, State.initialStep_eq], addRoundKey_apply s.state s.key⟩

/-- Settles O27: the command and the core step make the same of STATE and KEY, by `State.applyRound_eq`. -/
theorem roundStepRunsRoundOfCounter : Obligations.RoundStepRunsRoundOfCounter := by
  intro s hs hle
  have hj : s.rnd.toNat = (⟨s.rnd.toNat, by omega⟩ : Fin 10).val := rfl
  refine ⟨_, _, exec_round_of_not_busy rfl hj, ?_⟩
  rw [coreStep_round hs hj, State.roundStep_eq]
  simp only [roundIndex_last_iff hj]

/-! The commands -/

/-- Settles O14: NOP performs `State.complete`; after reset that leaves STATUS with SEQ and DONE only. -/
theorem nopOnlyCompletes : Obligations.NopOnlyCompletes := by
  have hnop : ∀ s : State, s.busy = false → exec .nop s = .next s.complete := fun s hb => exec_of_performs hb .nop
  refine ⟨hnop, rejectedWhileBusy _, rfl, onlyOpcodeBits_of_usedMask (by decide) (by decide), fun t ht => ?_⟩
  rw [hnop _ rfl] at ht
  injection ht with ht
  rw [← ht]
  rfl

/-- Settles O21: what ADDKEY performs, byte by byte, and its second application, which undoes the first. -/
theorem addkeyXorsKeyIntoState : Obligations.AddkeyXorsKeyIntoState := by
  refine ⟨fun s hb => ⟨addRoundKey s.state s.key, exec_addkey_of_not_busy hb, addRoundKey_apply s.state s.key⟩,
    fun s hb => ?_, rejectedWhileBusy _, rfl, onlyOpcodeBits_of_usedMask (by decide) (by decide)⟩
  rw [execList_cons _ (exec_addkey_of_not_busy hb), execList_cons _ (exec_addkey_of_not_busy rfl), execList,
    addRoundKey_addRoundKey]

/-- The stages of a round, issued one after the other, make of STATE and KEY what the round does. -/
theorem execList_roundStages {s : State} {j : BitVec 4} {r : Fin 10} (hb : s.busy = false) (hj : j.toNat = r.val) :
    execList (roundStages j) s =
      .next { s with state := roundBlock s.state s.key r, key := keyStep s.key r, seq := .done } := by
  by_cases hlast : j = 9#4
  · have hstages : roundStages j = [.subbytes, .shiftrows, .keystep j, .addkey] := by simp [roundStages, hlast]
    have hr : ¬ r ≠ 9 := not_not_intro ((roundIndex_last_iff hj).2 hlast)
    rw [hstages, execList_cons _ (exec_subbytes_of_not_busy hb), execList_cons _ (exec_shiftrows_of_not_busy rfl),
      execList_cons _ (exec_keystep_of_not_busy rfl hj), execList_cons _ (exec_addkey_of_not_busy rfl), execList,
      roundBlock, if_neg hr]
  · have hstages : roundStages j = [.subbytes, .shiftrows, .mixcolumns, .keystep j, .addkey] := by
      simp [roundStages, hlast]
    have hr : r ≠ 9 := mt (roundIndex_last_iff hj).1 hlast
    rw [hstages, execList_cons _ (exec_subbytes_of_not_busy hb), execList_cons _ (exec_shiftrows_of_not_busy rfl),
      execList_cons _ (exec_mixcolumns_of_not_busy rfl), execList_cons _ (exec_keystep_of_not_busy rfl hj),
      execList_cons _ (exec_addkey_of_not_busy rfl), execList, roundBlock, if_pos hr]

/-- Settles O22: the round and its stages answer one state; the fields A, B and RSV are outside the mask of the opcode. -/
theorem roundIsItsStages : Obligations.RoundIsItsStages := by
  refine ⟨fun j s hb hle => ?_, fun j s hb hj => exec_round_of_gt hb hj,
    fun j => ⟨rejectedWhileBusy _, encode_round_eq_append j⟩, fun v hv hfields => ?_⟩
  · have hj : j.toNat = (⟨j.toNat, by omega⟩ : Fin 10).val := rfl
    exact ⟨_, _, exec_round_of_not_busy hb hj, execList_roundStages hb hj⟩
  · rcases hfields with ha | hb | hrsv
    · exact decodeWord_of_unused_field hv (by decide) (by decide) ha
    · exact decodeWord_of_unused_field hv (by decide) (by decide) hb
    · exact decodeWord_of_unused_field hv (by decide) (by decide) hrsv

end Sys2Proof.Machine
end

section
/-! SUPPORT. An ENCRYPT from its acceptance to its end (45_round_sequencer.md R195 to R202): its blocks and round keys, the
whole of it as core steps and as primitive commands, and that no access of the host disturbs it. -/

namespace Sys2Proof.Machine

/-! The blocks and the round keys of an encryption -/

/-- The block after the whitening and `n` rounds: the full rounds up to the ninth, the ciphertext after the tenth. -/
def encryptBlock (b k : Block) (n : Nat) : Block := if n = 10 then aes128 b k else fullRounds b k n

theorem encryptBlock_of_le (b k : Block) {n : Nat} (h : n ≤ 9) : encryptBlock b k n = fullRounds b k n :=
  if_neg (by omega)

theorem fullRounds_zero (b k : Block) : fullRounds b k 0 = addRoundKey b k := by rw [fullRounds]

theorem encryptBlock_zero (b k : Block) : encryptBlock b k 0 = addRoundKey b k := by
  rw [encryptBlock_of_le b k (Nat.zero_le 9), fullRounds_zero]

theorem encryptBlock_last (b k : Block) : encryptBlock b k 10 = aes128 b k := rfl

theorem keyStep_roundKey (k : Block) (j : Fin 10) : keyStep (roundKey k j.val) j = roundKey k (j.val + 1) := by
  rw [roundKey, dif_pos j.isLt]

/-- Round `j` takes the block and the round key that `j` rounds have left to those that `j + 1` rounds leave. -/
theorem roundBlock_encryptBlock (b k : Block) (j : Fin 10) :
    roundBlock (encryptBlock b k j.val) (roundKey k j.val) j = encryptBlock b k (j.val + 1) := by
  rw [roundBlock, keyStep_roundKey, encryptBlock_of_le b k (by omega)]
  by_cases hlast : j = 9
  · rw [if_neg (not_not_intro hlast), hlast]
    rfl
  · rw [if_pos hlast, encryptBlock_of_le b k (by omega)]
    rfl

/-! ENCRYPT as core steps -/

/-- The core steps of an ENCRYPT accepted in `s`, `n` of its rounds being done, with no access of the host between them. -/
def State.encryptAfter (s : State) (n : Nat) : State :=
  { s with
    state := encryptBlock s.state s.key n
    key := roundKey s.key n
    seq := if n = 10 then .done else .round
    rnd := BitVec.ofNat 4 n }

theorem coreSteps_succ {n : Nat} {s t : State} (h : coreSteps n s = .next t) : coreSteps (n + 1) s = coreStep t := by
  induction n generalizing s with
  | zero =>
    cases h
    simp only [coreSteps]
    cases coreStep t <;> rfl
  | succ n ih =>
    rw [coreSteps] at h ⊢
    cases hs : coreStep s with
    | next u => rw [hs] at h; exact ih h
    | fault f => rw [hs] at h; cases h
    | refused r => rw [hs] at h; cases h

theorem coreStep_startEncrypt (s : State) : coreStep s.startEncrypt = .next (s.encryptAfter 0) := by
  rw [coreStep_initial rfl, State.initialStep_eq, State.encryptAfter, encryptBlock_zero, roundKey]
  rfl

theorem coreStep_encryptAfter (s : State) (j : Fin 10) :
    coreStep (s.encryptAfter j.val) = .next (s.encryptAfter (j.val + 1)) := by
  have hseq : (s.encryptAfter j.val).seq = .round := if_neg (by omega)
  have hrnd : (s.encryptAfter j.val).rnd.toNat = j.val := Nat.mod_eq_of_lt (by omega)
  have hlast : j = 9 ↔ j.val + 1 = 10 := by rw [Fin.ext_iff]; simp
  rw [coreStep_round hseq hrnd, State.roundStep_eq]
  simp only [State.encryptAfter, roundBlock_encryptBlock, keyStep_roundKey, hlast, ← BitVec.ofNat_add]

/-- The whitening is the first of the core steps; each of the ten rounds is one more. -/
theorem coreSteps_startEncrypt (s : State) {n : Nat} (hn : n ≤ 10) :
    coreSteps (n + 1) s.startEncrypt = .next (s.encryptAfter n) := by
  induction n with
  | zero => exact (coreSteps_succ rfl).trans (coreStep_startEncrypt s)
  | succ n ih => exact (coreSteps_succ (ih (by omega))).trans (coreStep_encryptAfter s ⟨n, by omega⟩)

/-! ENCRYPT as primitive commands -/

theorem execList_append {is : List Instr} (js : List Instr) {s t : State} (h : execList is s = .next t) :
    execList (is ++ js) s = execList js t := by
  induction is generalizing s with
  | nil => cases h; rfl
  | cons i is ih =>
    obtain ⟨u, hu⟩ := exec_total i s
    rw [execList_cons _ hu] at h
    rw [List.cons_append, execList_cons _ hu, ih h]

/-- ADDKEY and the first `n` rounds. -/
def encryptPrimitives (n : Nat) : List Instr := .addkey :: (List.range n).map fun j => .round (BitVec.ofNat 4 j)

/-- The primitives make of STATE and KEY what the core steps of an ENCRYPT do. -/
theorem execList_encryptPrimitives {s : State} (hb : s.busy = false) {n : Nat} (hn : n ≤ 10) :
    execList (encryptPrimitives n) s =
      .next { s with state := encryptBlock s.state s.key n, key := roundKey s.key n, seq := .done } := by
  induction n with
  | zero =>
    rw [encryptBlock_zero, roundKey]
    exact execList_cons [] (exec_addkey_of_not_busy hb)
  | succ n ih =>
    have hlist : encryptPrimitives (n + 1) = encryptPrimitives n ++ [.round (BitVec.ofNat 4 n)] := by
      simp [encryptPrimitives, List.range_succ]
    have hj : (BitVec.ofNat 4 n).toNat = (⟨n, by omega⟩ : Fin 10).val := Nat.mod_eq_of_lt (by omega)
    rw [hlist, execList_append _ (ih (by omega)), execList_cons _ (exec_round_of_not_busy rfl hj), execList,
      roundBlock_encryptBlock _ _ ⟨n, by omega⟩, keyStep_roundKey _ ⟨n, by omega⟩]

/-- Settles O31: both sequences end in the ciphertext and the tenth round key; only the core steps count in RND. -/
theorem encryptAgreesWithPrimitives : Obligations.EncryptAgreesWithPrimitives := fun s hb =>
  ⟨s.startEncrypt, s.encryptAfter 10, _, exec_of_performs hb .encrypt, coreSteps_startEncrypt s le_rfl,
    execList_encryptPrimitives hb le_rfl, rfl, rfl, rfl, rfl⟩

/-! No access of the host disturbs an ENCRYPT -/

/-- Two states agree on the registers that an ENCRYPT works on. -/
structure State.SameEngine (s t : State) : Prop where
  state : t.state = s.state
  key : t.key = s.key
  seq : t.seq = s.seq
  rnd : t.rnd = s.rnd

theorem State.SameEngine.trans {s t u : State} (h : s.SameEngine t) (h' : t.SameEngine u) : s.SameEngine u :=
  ⟨h'.state.trans h.state, h'.key.trans h.key, h'.seq.trans h.seq, h'.rnd.trans h.rnd⟩

theorem State.SameEngine.encryptOf {b k : Block} {s t : State} (h : s.SameEngine t) (hs : s.EncryptOf b k) :
    t.EncryptOf b k := by
  unfold State.EncryptOf at hs ⊢
  rwa [h.seq, h.rnd, h.state, h.key]

theorem State.sameEngine_answered (s : State) (a : Answer) : s.SameEngine (s.answered a) := ⟨rfl, rfl, rfl, rfl⟩

theorem State.sameEngine_cmdError (s : State) (e : CmdErr) : s.SameEngine (s.cmdError e) := ⟨rfl, rfl, rfl, rfl⟩

theorem State.sameEngine_statusWrite (v : Word) (s : State) : s.SameEngine (statusWrite v s) := by
  unfold statusWrite
  split <;> exact ⟨rfl, rfl, rfl, rfl⟩

theorem State.sameEngine_waitTurn (rest : List HostOp) (s : State) : s.SameEngine (waitTurn rest s) := by
  unfold waitTurn
  split <;> exact ⟨rfl, rfl, rfl, rfl⟩

theorem State.sameEngine_readReg (r : Reg) (s : State) : s.SameEngine (readReg r s).2 := by
  rcases readReg_state r s with h | h <;> (rw [h]; exact ⟨rfl, rfl, rfl, rfl⟩)

/-- While BUSY, a write of CTRL or of a data register is rejected, and the other two registers are none of the engine's. -/
theorem writeReg_sameEngine_of_busy {r : Reg} {v : Word} {s t : State} (hb : s.busy = true)
    (h : writeReg r v s = .next t) : s.SameEngine t := by
  cases r with
  | ctrl => cases (ctrlWrite_of_busy hb v).symm.trans h; exact s.sameEngine_cmdError .busyCmd
  | status => cases h; exact s.sameEngine_statusWrite v
  | result => cases h; exact ⟨rfl, rfl, rfl, rfl⟩
  | state k | key k => cases h; rw [dataWrite_of_busy hb]; exact s.sameEngine_cmdError .busyData

theorem accessReg_sameEngine_of_busy {r : Reg} {x : Xfer} {s t : State} (hb : s.busy = true)
    (h : accessReg r x s = .next t) : s.SameEngine t := by
  cases x with
  | read n => cases h; exact (s.sameEngine_readReg r).trans (State.sameEngine_answered _ _)
  | write n v => exact (s.sameEngine_answered .written).trans (writeReg_sameEngine_of_busy hb h)

theorem hostStep_sameEngine_of_busy {s t : State} (hb : s.busy = true) (h : hostStep s = .next t) : s.SameEngine t := by
  rcases hostStep_cases h with ⟨-, rfl⟩ | ⟨rest, -, rfl⟩ | ⟨addr, x, rest, -, -, rfl⟩ | ⟨r, x, rest, hr, -⟩
  · exact ⟨rfl, rfl, rfl, rfl⟩
  · exact s.sameEngine_waitTurn rest
  · exact ⟨rfl, rfl, rfl, rfl⟩
  · have hrest : s.SameEngine { s with host := rest } := ⟨rfl, rfl, rfl, rfl⟩
    exact hrest.trans (accessReg_sameEngine_of_busy hb hr)

/-! The core keeps an ENCRYPT on its course -/

theorem State.encryptOf_startEncrypt (s : State) : s.startEncrypt.EncryptOf s.state s.key := ⟨rfl, rfl, rfl⟩

theorem State.EncryptOf.initialStep {b k : Block} {s : State} (hs : s.seq = .initial) (h : s.EncryptOf b k) :
    s.initialStep.EncryptOf b k := by
  simp only [State.EncryptOf, hs] at h
  obtain ⟨-, rfl, rfl⟩ := h
  rw [State.initialStep_eq]
  exact ⟨Nat.zero_le 9, (fullRounds_zero _ _).symm, rfl⟩

/-- In ROUND the counter says how many rounds are done; the step does one more. -/
theorem State.EncryptOf.roundStep {b k : Block} {s : State} {j : Fin 10} (hs : s.seq = .round) (hj : s.rnd.toNat = j.val)
    (h : s.EncryptOf b k) : (s.roundStep j).EncryptOf b k := by
  simp only [State.EncryptOf, hs, hj] at h
  obtain ⟨hle, hstate, hkey⟩ := h
  rw [← encryptBlock_of_le b k hle] at hstate
  have hstate' : (s.roundStep j).state = encryptBlock b k (j.val + 1) := by
    rw [State.roundStep_eq, hstate, hkey]
    exact roundBlock_encryptBlock b k j
  have hkey' : (s.roundStep j).key = roundKey k (j.val + 1) := by
    rw [State.roundStep_key, hkey, keyStep_roundKey]
  have hrnd : (s.rnd + 1#4).toNat = j.val + 1 := by bv_omega
  by_cases hlast : j = 9
  · subst hlast
    exact ⟨BitVec.eq_of_toNat_eq hrnd, hstate'.trans (encryptBlock_last b k), hkey'⟩
  · have hle' : j.val + 1 ≤ 9 := by omega
    rw [encryptBlock_of_le b k hle'] at hstate'
    simp only [State.EncryptOf, State.roundStep_seq, State.roundStep_rnd, if_neg hlast, hrnd]
    exact ⟨hle', hstate', hkey'⟩

theorem State.EncryptOf.coreStep {b k : Block} {s t : State} (h : s.EncryptOf b k) (ht : coreStep s = .next t) :
    t.EncryptOf b k := by
  rcases coreStep_cases ht with ⟨-, rfl⟩ | ⟨hs, rfl⟩ | ⟨hs, j, hj, rfl⟩
  · exact h
  · exact h.initialStep hs
  · exact h.roundStep hs (roundIndex_eq_some.1 hj)

/-- Settles O30: a core step goes on along the course, and a turn of the host leaves the four registers that define it. -/
theorem interleavedEncryptStaysOnCourse : Obligations.InterleavedEncryptStaysOnCourse := by
  refine ⟨fun s hb => ⟨s.startEncrypt, exec_of_performs hb .encrypt, rfl, s.encryptOf_startEncrypt⟩,
    fun b k s t hb h hturn ht => ?_⟩
  obtain ⟨ts, hstep⟩ := step_cases s
  have hb' : ({ s with turns := ts } : State).busy = true := hb
  have h' : ({ s with turns := ts } : State).EncryptOf b k := h
  rcases hstep with ⟨hreset, -⟩ | ⟨-, hcore | hhost⟩
  · exact absurd hreset hturn
  · exact h'.coreStep (hcore.symm.trans ht)
  · exact (hostStep_sameEngine_of_busy hb' (hhost.symm.trans ht)).encryptOf h'

end Sys2Proof.Machine
end

section
/-! SUPPORT. The command error (60_exceptions.md R231, R232): what it does to a state without an error and to one with. -/

namespace Sys2Proof.Machine

/-- The first error since the last clear is recorded with its code. -/
theorem State.cmdError_of_not_err {s : State} (h : s.err = false) (e : CmdErr) :
    s.cmdError e = { s with err := true, errCode := errCodeOf e } := by
  simp [State.cmdError, h]

/-- A later error finds ERR set and the first code in place, and leaves both. -/
theorem State.cmdError_of_err {s : State} (h : s.err = true) (e : CmdErr) : s.cmdError e = s := by
  rw [State.cmdError, if_pos h, ← h]

/-- Settles O12: the two cases of ERR, and the codes of the table of R231. -/
theorem commandErrorKeepsFirstCode : Obligations.CommandErrorKeepsFirstCode :=
  fun _ e => ⟨fun h => State.cmdError_of_not_err h e, fun h => State.cmdError_of_err h e, rfl, rfl, rfl, rfl, rfl⟩

end Sys2Proof.Machine
end

section
/-! SUPPORT. Decoding and encoding as statements (30_encoding.md R83, R86, R90). -/

namespace Sys2Proof

/-- Settles O3: the well-formed case of `decodeWord_encode`. -/
theorem decodeOfEncode : Obligations.DecodeOfEncode := fun _ => decodeWord_encode_of_wf

/-- Settles O4: the legal words are the encoded well-formed commands. -/
theorem legalWordIsItsEncoding : Obligations.LegalWordIsItsEncoding := fun _ _ => decodeWord_eq_legal_iff.1

/-- Settles O6: the decoder run on the eight words. -/
theorem sampleWordsDecode : Obligations.SampleWordsDecode := by
  unfold Obligations.SampleWordsDecode
  decide

end Sys2Proof
end

section
/-! SUPPORT. What a command makes of the registers, said once: rejected or performed, and for each register the commands that
change it (10_state.md R36, 30_encoding.md R85, R87, R88). -/

namespace Sys2Proof.Machine

/-- The commands that are not well-formed are those with a round index above 9, and they are rejected for it. -/
theorem exec_of_not_wf {i : Instr} {s : State} (hb : s.busy = false) (hwf : i.wf = false) :
    exec i s = .next (s.cmdError .badRidx) := by
  cases i with
  | keystep j => exact exec_keystep_of_gt hb (by simpa [Instr.wf] using hwf)
  | round j => exact exec_round_of_gt hb (by simpa [Instr.wf] using hwf)
  | nop | sbox | subbytes | shiftrows | gfmul | mixcolumns | addkey | encrypt => cases hwf

/-- A command is rejected while BUSY or for its round index, and otherwise it is performed. -/
theorem exec_cases {i : Instr} {s t : State} (h : exec i s = .next t) :
    (s.busy = true ∧ t = s.cmdError .busyCmd) ∨ (s.busy = false ∧ i.wf = false ∧ t = s.cmdError .badRidx) ∨
    (s.busy = false ∧ i.wf = true ∧ Performs s i t) := by
  cases hb : s.busy with
  | true =>
    cases (rejectedWhileBusy i s hb).symm.trans h
    exact .inl ⟨rfl, rfl⟩
  | false =>
    cases hwf : i.wf with
    | true =>
      obtain ⟨u, hu⟩ := performs_of_wf s hwf
      cases (exec_of_performs hb hu).symm.trans h
      exact .inr (.inr ⟨rfl, rfl, hu⟩)
    | false =>
      cases (exec_of_not_wf hb hwf).symm.trans h
      exact .inr (.inl ⟨rfl, rfl, rfl⟩)

/-! Which performed command changes which register -/

section
variable {s t : State} {i : Instr}

theorem Performs.of_state_ne (h : Performs s i t) (hne : t.state ≠ s.state) :
    i = .subbytes ∨ i = .shiftrows ∨ i = .mixcolumns ∨ i = .addkey ∨ ∃ j, i = .round j := by
  cases h with
  | subbytes | shiftrows | mixcolumns | addkey => simp
  | round j => exact .inr (.inr (.inr (.inr ⟨j, rfl⟩)))
  | nop | sbox | gfmul | keystep | encrypt => simp at hne

theorem Performs.of_key_ne (h : Performs s i t) (hne : t.key ≠ s.key) : ∃ j, i = .keystep j ∨ i = .round j := by
  cases h with
  | keystep j => exact ⟨j, .inl rfl⟩
  | round j => exact ⟨j, .inr rfl⟩
  | nop | sbox | subbytes | shiftrows | gfmul | mixcolumns | addkey | encrypt => simp at hne

theorem Performs.of_result_ne (h : Performs s i t) (hne : t.result ≠ s.result) :
    (∃ a, i = .sbox a) ∨ ∃ a b, i = .gfmul a b := by
  cases h with
  | sbox a => exact .inl ⟨a, rfl⟩
  | gfmul a b => exact .inr ⟨a, b, rfl⟩
  | nop | subbytes | shiftrows | mixcolumns | keystep | addkey | round | encrypt => simp at hne

theorem Performs.of_rnd_ne (h : Performs s i t) (hne : t.rnd ≠ s.rnd) : i = .encrypt := by
  by_contra hi
  obtain ⟨u, rfl, hrnd, -, -⟩ := performs_primitive h hi
  exact hne (u.complete_rnd.trans hrnd)

/-- No performed command touches ERR, ERRCODE, or a field of the model's own (log entries 1, 4, 5, 6). -/
theorem Performs.frame (h : Performs s i t) :
    t.err = s.err ∧ t.errCode = s.errCode ∧ t.draws = s.draws ∧ t.host = s.host ∧ t.turns = s.turns
      ∧ t.answer = s.answer := by
  cases h <;> simp

end

/-- Settles O25: a rejected command is `State.cmdError`, and a performed one has the frame of `Performs`. -/
theorem commandsWriteOnlyTheirRegisters : Obligations.CommandsWriteOnlyTheirRegisters := by
  intro i s t h
  rcases exec_cases h with ⟨hb, rfl⟩ | ⟨-, hwf, rfl⟩ | ⟨hb, hwf, hp⟩
  · simp [hb]
  · simp [hwf]
  · obtain ⟨herr, hcode, hmodel⟩ := hp.frame
    have haccepted : ¬ (s.busy = true ∨ i.wf = false) := by simp [hb, hwf]
    have hnoError : ¬ (t.err ≠ s.err ∨ t.errCode ≠ s.errCode) := by simp [herr, hcode]
    exact ⟨hp.of_state_ne, hp.of_key_ne, hp.of_result_ne, hp.of_rnd_ne, fun hne => absurd hne hnoError,
      fun hrej => absurd hrej haccepted, hmodel⟩

end Sys2Proof.Machine
end

section
/-! SUPPORT. Control flow against data (45_round_sequencer.md R203, 70_reset_and_hazards.md R269): every operation of the machine
takes two states that differ in STATE, KEY, RESULT and the last answer only to two such states. -/

namespace Sys2Proof.Machine

theorem coreStep_of_not_busy {s : State} (hb : s.busy = false) : coreStep s = .next s := by
  cases hq : s.seq with
  | idle | done => simp only [coreStep, hq]
  | initial | round => simp [State.busy, Seq.busy, hq] at hb

namespace State.SameControl

section
variable {s s' t : State}

theorem busy (hs : s.SameControl s') : s.busy = s'.busy := congrArg Seq.busy hs.seq

theorem statusWord (hs : s.SameControl s') : s.statusWord = s'.statusWord := by
  simp only [State.statusWord, State.statusBits, State.isDone, hs.busy, hs.seq, hs.rnd, hs.err, hs.errCode]

/-! The updates of the state -/

theorem withTurns (hs : s.SameControl s') (ts : List Turn) :
    SameControl { s with turns := ts } { s' with turns := ts } :=
  ⟨hs.seq, hs.rnd, hs.err, hs.errCode, hs.draws, hs.host, rfl⟩

theorem withHost (hs : s.SameControl s') (ops : List HostOp) :
    SameControl { s with host := ops } { s' with host := ops } :=
  ⟨hs.seq, hs.rnd, hs.err, hs.errCode, hs.draws, rfl, hs.turns⟩

theorem answered (hs : s.SameControl s') (a a' : Answer) : (s.answered a).SameControl (s'.answered a') :=
  ⟨hs.seq, hs.rnd, hs.err, hs.errCode, hs.draws, hs.host, hs.turns⟩

theorem drewOne (hs : s.SameControl s') : s.drewOne.SameControl s'.drewOne :=
  ⟨hs.seq, hs.rnd, hs.err, hs.errCode, congrArg (· + 1) hs.draws, hs.host, hs.turns⟩

theorem applyReset (hs : s.SameControl s') : s.applyReset.SameControl s'.applyReset := by
  constructor <;> simp [hs.draws, hs.host, hs.turns]

theorem cmdError (hs : s.SameControl s') (e : CmdErr) : (s.cmdError e).SameControl (s'.cmdError e) :=
  ⟨hs.seq, hs.rnd, rfl, by simp only [State.cmdError_errCode, hs.err, hs.errCode], hs.draws, hs.host, hs.turns⟩

theorem clearError (hs : s.SameControl s') : s.clearError.SameControl s'.clearError :=
  ⟨hs.seq, hs.rnd, rfl, rfl, hs.draws, hs.host, hs.turns⟩

theorem writeState (hs : s.SameControl s') (k : Fin 4) (v : Word) :
    (s.writeState k v).SameControl (s'.writeState k v) := by
  constructor <;> simp [hs.seq, hs.rnd, hs.err, hs.errCode, hs.draws, hs.host, hs.turns]

theorem writeKey (hs : s.SameControl s') (k : Fin 4) (v : Word) :
    (s.writeKey k v).SameControl (s'.writeKey k v) := by
  constructor <;> simp [hs.seq, hs.rnd, hs.err, hs.errCode, hs.draws, hs.host, hs.turns]

theorem startEncrypt (hs : s.SameControl s') : s.startEncrypt.SameControl s'.startEncrypt :=
  ⟨rfl, rfl, hs.err, hs.errCode, hs.draws, hs.host, hs.turns⟩

theorem initialStep (hs : s.SameControl s') : s.initialStep.SameControl s'.initialStep := by
  constructor <;> simp [hs.err, hs.errCode, hs.draws, hs.host, hs.turns]

theorem roundStep (hs : s.SameControl s') (j : Fin 10) : (s.roundStep j).SameControl (s'.roundStep j) := by
  constructor <;> simp [hs.rnd, hs.err, hs.errCode, hs.draws, hs.host, hs.turns]

/-! The commands -/

theorem performs {i : Instr} {t' : State} (hs : s.SameControl s') (h : Performs s i t) (h' : Performs s' i t') :
    t.SameControl t' := by
  by_cases hi : i = .encrypt
  · subst hi
    cases h
    cases h'
    exact hs.startEncrypt
  · obtain ⟨herr, hcode, hdraws, hhost, hturns, -⟩ := h.frame
    obtain ⟨herr', hcode', hdraws', hhost', hturns', -⟩ := h'.frame
    obtain ⟨u, rfl, hrnd, -, -⟩ := performs_primitive h hi
    obtain ⟨u', rfl, hrnd', -, -⟩ := performs_primitive h' hi
    exact ⟨rfl, hrnd.trans (hs.rnd.trans hrnd'.symm), herr.trans (hs.err.trans herr'.symm),
      hcode.trans (hs.errCode.trans hcode'.symm), hdraws.trans (hs.draws.trans hdraws'.symm),
      hhost.trans (hs.host.trans hhost'.symm), hturns.trans (hs.turns.trans hturns'.symm)⟩

theorem exec {i : Instr} (hs : s.SameControl s') (h : Machine.exec i s = .next t) :
    ∃ t', Machine.exec i s' = .next t' ∧ t.SameControl t' := by
  rcases exec_cases h with ⟨hb, rfl⟩ | ⟨hb, hwf, rfl⟩ | ⟨hb, hwf, hp⟩ <;> rw [hs.busy] at hb
  · exact ⟨_, rejectedWhileBusy i s' hb, hs.cmdError _⟩
  · exact ⟨_, exec_of_not_wf hb hwf, hs.cmdError _⟩
  · obtain ⟨t', hp'⟩ := performs_of_wf s' hwf
    exact ⟨t', exec_of_performs hb hp', hs.performs hp hp'⟩

/-! The window -/

theorem readReg (hs : s.SameControl s') (r : Reg) : (Machine.readReg r s).2.SameControl (Machine.readReg r s').2 := by
  cases r with
  | ctrl | status | result => exact hs
  | state k | key k =>
    simp only [Machine.readReg, readColumn, ← hs.busy]
    split
    · exact hs.drewOne
    · exact hs

theorem ctrlWrite {v : Word} (hs : s.SameControl s') (h : Machine.ctrlWrite v s = .next t) :
    ∃ t', Machine.ctrlWrite v s' = .next t' ∧ t.SameControl t' := by
  rcases ctrlWrite_cases v s with ⟨hb, hc⟩ | ⟨hb, e, hd, hc⟩ | ⟨hb, i, hd, hc⟩ <;> rw [hc] at h <;> rw [hs.busy] at hb
  · cases h
    exact ⟨_, ctrlWrite_of_busy hb v, hs.cmdError _⟩
  · cases h
    exact ⟨_, ctrlWrite_of_illegal hb hd, hs.cmdError _⟩
  · rw [ctrlWrite_of_legal hb hd]
    exact hs.exec h

theorem statusWrite (hs : s.SameControl s') (v : Word) : (Machine.statusWrite v s).SameControl (Machine.statusWrite v s') := by
  unfold Machine.statusWrite
  split
  · exact hs.clearError
  · exact hs

theorem dataWrite {perform : State → State} (hs : s.SameControl s')
    (hperform : (perform s).SameControl (perform s')) :
    (Machine.dataWrite perform s).SameControl (Machine.dataWrite perform s') := by
  simp only [Machine.dataWrite, ← hs.busy]
  split
  · exact hs.cmdError _
  · exact hperform

theorem writeReg {r : Reg} {v : Word} (hs : s.SameControl s') (h : Machine.writeReg r v s = .next t) :
    ∃ t', Machine.writeReg r v s' = .next t' ∧ t.SameControl t' := by
  cases r with
  | ctrl => exact hs.ctrlWrite h
  | status => cases h; exact ⟨_, rfl, hs.statusWrite v⟩
  | result => cases h; exact ⟨_, rfl, hs⟩
  | state k => cases h; exact ⟨_, rfl, hs.dataWrite (hs.writeState k v)⟩
  | key k => cases h; exact ⟨_, rfl, hs.dataWrite (hs.writeKey k v)⟩

theorem accessReg {r : Reg} {x : Xfer} (hs : s.SameControl s') (h : Machine.accessReg r x s = .next t) :
    ∃ t', Machine.accessReg r x s' = .next t' ∧ t.SameControl t' := by
  cases x with
  | read n => cases h; exact ⟨_, rfl, (hs.readReg r).answered _ _⟩
  | write n v => exact (hs.answered _ _).writeReg h

/-! The turns -/

theorem waitTurn (hs : s.SameControl s') (rest : List HostOp) :
    (Machine.waitTurn rest s).SameControl (Machine.waitTurn rest s') := by
  simp only [Machine.waitTurn, ← hs.statusWord]
  split
  · exact hs.answered _ _
  · exact (hs.withHost rest).answered _ _

theorem hostStep (hs : s.SameControl s') (h : Machine.hostStep s = .next t) :
    ∃ t', Machine.hostStep s' = .next t' ∧ t.SameControl t' := by
  rcases hostStep_cases h with ⟨hh, rfl⟩ | ⟨rest, hh, rfl⟩ | ⟨addr, x, rest, hh, hw, rfl⟩ |
    ⟨r, x, rest, hr, ⟨off, hh, hl⟩ | ⟨addr, off, hh, hw, hl⟩⟩ <;> rw [hs.host] at hh
  · exact ⟨s', by simp only [Machine.hostStep, hh], hs⟩
  · exact ⟨_, by simp only [Machine.hostStep, hh], hs.waitTurn rest⟩
  · exact ⟨_, by simp only [Machine.hostStep, hh, accessBus, hw], (hs.withHost rest).answered _ .silent⟩
  · simp only [Machine.hostStep, hh, accessWindow, hl]
    exact (hs.withHost rest).accessReg hr
  · simp only [Machine.hostStep, hh, accessBus, hw, accessWindow, hl]
    exact (hs.withHost rest).accessReg hr

theorem coreStep (hs : s.SameControl s') (h : Machine.coreStep s = .next t) :
    ∃ t', Machine.coreStep s' = .next t' ∧ t.SameControl t' := by
  rcases coreStep_cases h with ⟨hb, rfl⟩ | ⟨hq, rfl⟩ | ⟨hq, j, hj, rfl⟩
  · rw [hs.busy] at hb
    exact ⟨s', coreStep_of_not_busy hb, hs⟩
  · exact ⟨_, coreStep_initial (hs.seq ▸ hq), hs.initialStep⟩
  · exact ⟨_, coreStep_round (hs.seq ▸ hq) (hs.rnd ▸ roundIndex_eq_some.1 hj), hs.roundStep j⟩

theorem step (hs : s.SameControl s') (h : Machine.step s = .next t) :
    ∃ t', Machine.step s' = .next t' ∧ t.SameControl t' := by
  cases ht : s.turns with
  | nil =>
    have ht' : s'.turns = [] := hs.turns ▸ ht
    cases hb : s.busy with
    | true =>
      rw [step_no_turn_busy ht hb] at h
      rw [step_no_turn_busy ht' (hs.busy ▸ hb)]
      exact hs.coreStep h
    | false =>
      rw [step_no_turn_not_busy ht hb] at h
      rw [step_no_turn_not_busy ht' (hs.busy ▸ hb)]
      exact hs.hostStep h
  | cons u ts =>
    have ht' : s'.turns = u :: ts := hs.turns ▸ ht
    cases u with
    | host =>
      rw [step_host_turn ht] at h
      rw [step_host_turn ht']
      exact (hs.withTurns ts).hostStep h
    | core =>
      rw [step_core_turn ht] at h
      rw [step_core_turn ht']
      exact (hs.withTurns ts).coreStep h
    | reset =>
      obtain rfl := Host.Outcome.next.inj ((step_reset_turn ht).symm.trans h)
      exact ⟨_, step_reset_turn ht', (hs.withTurns ts).applyReset⟩

end

end State.SameControl

/-- Settles O33: a step is a turn of the host, of the core or a reset, and each takes states that agree on control to such
states. -/
theorem controlIsIndependentOfData : Obligations.ControlIsIndependentOfData := fun _ _ _ hs h => hs.step h

end Sys2Proof.Machine
end

section
/-! SUPPORT. The flags SEQ, RND, ERR and ERRCODE: what each turn makes of them, said once, and what follows: the invariant is kept
(10_state.md R26 to R29), and an error stays until it is acknowledged (60_exceptions.md R236). -/

namespace Sys2Proof.Machine

/-- Two states agree on the flags. -/
structure State.SameFlags (s t : State) : Prop where
  seq : t.seq = s.seq
  rnd : t.rnd = s.rnd
  err : t.err = s.err
  errCode : t.errCode = s.errCode

theorem State.SameFlags.refl (s : State) : s.SameFlags s := ⟨rfl, rfl, rfl, rfl⟩

theorem State.sameFlags_readReg (r : Reg) (s : State) (a : Answer) : s.SameFlags ((readReg r s).2.answered a) := by
  rcases readReg_state r s with h | h <;> rw [h] <;> exact ⟨rfl, rfl, rfl, rfl⟩

theorem State.sameFlags_waitTurn (rest : List HostOp) (s : State) : s.SameFlags (waitTurn rest s) := by
  unfold waitTurn
  split <;> exact ⟨rfl, rfl, rfl, rfl⟩

/-! The host's turn -/

/-- The statement is a 4-byte write of `v` at window offset `off`, by offset or by byte address. -/
def HostOp.IsWrite (op : HostOp) (off : BitVec 6) (v : Word) : Prop :=
  op = .access off (.write 4 v) ∨ ∃ addr, windowOffset addr = some off ∧ op = .bus addr (.write 4 v)

theorem HostOp.IsWrite.takesWrite {s u : State} {op : HostOp} {off : BitVec 6} {v : Word} (h : op.IsWrite off v)
    (ht : s.hostTakes = some (op, u)) : s.takesWrite off v u := by
  rcases h with rfl | ⟨addr, hw, rfl⟩
  · exact .inl ht
  · exact .inr ⟨addr, hw, ht⟩

theorem regAt_eq_ctrl {off : BitVec 6} : regAt off = some .ctrl → off = 0x00#6 := by
  revert off; decide

theorem regAt_eq_status {off : BitVec 6} : regAt off = some .status → off = 0x04#6 := by
  revert off; decide

/-- A legal access is 4 bytes wide, at the offset of its register. -/
theorem legalReg_eq_some {off : BitVec 6} {x : Xfer} {r : Reg} (h : legalReg off x = some r) :
    x.width = 4 ∧ regAt off = some r := by
  unfold legalReg at h
  split at h
  case isTrue hx => exact ⟨hx.1, h⟩
  case isFalse => cases h

/-- What a write of a register does to the flags: nothing, a command error, the acknowledgement of one, or a command. -/
theorem writeReg_flags {r : Reg} {v : Word} {s t : State} (h : writeReg r v s = .next t) :
    s.SameFlags t ∨ (∃ e, t = s.cmdError e) ∨
    (r = .status ∧ v.getLsbD 2 = true ∧ t = s.clearError) ∨
    (r = .ctrl ∧ s.busy = false ∧ ∃ i, decodeWord v = .legal i ∧ exec i s = .next t) := by
  cases r with
  | ctrl =>
    have h : ctrlWrite v s = .next t := h
    rcases ctrlWrite_cases v s with ⟨-, hc⟩ | ⟨-, e, -, hc⟩ | ⟨hb, i, hd, hc⟩
    · cases hc.symm.trans h
      exact .inr (.inl ⟨_, rfl⟩)
    · cases hc.symm.trans h
      exact .inr (.inl ⟨e, rfl⟩)
    · exact .inr (.inr (.inr ⟨rfl, hb, i, hd, hc.symm.trans h⟩))
  | status =>
    cases h
    cases hv : v.getLsbD 2 with
    | true => exact .inr (.inr (.inl ⟨rfl, rfl, statusWrite_of_bit_two hv s⟩))
    | false =>
      rw [statusWrite_of_not_bit_two hv]
      exact .inl (.refl s)
  | result => cases h; exact .inl (.refl s)
  | state k | key k =>
    cases h
    cases hb : s.busy with
    | true => exact .inr (.inl ⟨.busyData, dataWrite_of_busy hb _⟩)
    | false =>
      rw [dataWrite_of_not_busy hb]
      exact .inl (by constructor <;> simp)

/-- The same for one turn of the host. The acknowledgement is a write of STATUS, the command a write of CTRL. -/
theorem hostStep_flags {s t : State} (h : hostStep s = .next t) :
    s.SameFlags t ∨ (∃ e, (s.cmdError e).SameFlags t) ∨
    (∃ op rest v, s.host = op :: rest ∧ op.IsWrite 0x04#6 v ∧ v.getLsbD 2 = true ∧ s.clearError.SameFlags t) ∨
    (s.busy = false ∧ ∃ op rest v i, s.host = op :: rest ∧ op.IsWrite 0x00#6 v ∧ decodeWord v = .legal i ∧
      exec i { s with host := rest, answer := .written } = .next t) := by
  rcases hostStep_cases h with ⟨-, rfl⟩ | ⟨rest, -, rfl⟩ | ⟨addr, x, rest, -, -, rfl⟩ | ⟨r, x, rest, hr, hhead⟩
  · exact .inl (.refl _)
  · exact .inl (s.sameFlags_waitTurn rest)
  · exact .inl ⟨rfl, rfl, rfl, rfl⟩
  · cases x with
    | read n =>
      cases hr
      obtain ⟨hseq, hrnd, herr, hcode⟩ := State.sameFlags_readReg r { s with host := rest } (.data (readReg r _).1)
      exact .inl ⟨hseq, hrnd, herr, hcode⟩
    | write n v =>
      have hwrite : ∃ op off, s.host = op :: rest ∧ op.IsWrite off v ∧ regAt off = some r := by
        rcases hhead with ⟨off, hh, hl⟩ | ⟨addr, off, hh, hw, hl⟩ <;> obtain ⟨rfl, hreg⟩ := legalReg_eq_some hl
        · exact ⟨_, off, hh, .inl rfl, hreg⟩
        · exact ⟨_, off, hh, .inr ⟨addr, hw, rfl⟩, hreg⟩
      obtain ⟨op, off, hh, hop, hreg⟩ := hwrite
      rcases writeReg_flags hr with hsame | ⟨e, rfl⟩ | ⟨rfl, hv, rfl⟩ | ⟨rfl, hb, i, hd, hx⟩
      · exact .inl ⟨hsame.seq, hsame.rnd, hsame.err, hsame.errCode⟩
      · exact .inr (.inl ⟨e, rfl, rfl, rfl, rfl⟩)
      · cases regAt_eq_status hreg
        exact .inr (.inr (.inl ⟨op, rest, v, hh, hop, hv, rfl, rfl, rfl, rfl⟩))
      · cases regAt_eq_ctrl hreg
        exact .inr (.inr (.inr ⟨hb, op, rest, v, i, hh, hop, hd, hx⟩))

/-! The invariant -/

theorem State.Inv.of_sameFlags {s t : State} (hs : s.Inv) (h : s.SameFlags t) : t.Inv :=
  ⟨by rw [h.seq, h.rnd]; exact hs.seqRnd, by rw [h.err, h.errCode]; exact hs.errFlag⟩

/-- The codes of command errors are 1 to 5 (60_exceptions.md R231). -/
theorem errLegal_errCodeOf (e : CmdErr) : errLegal true (errCodeOf e) = true := by
  cases e <;> decide

theorem State.Inv.cmdError {s : State} (hs : s.Inv) (e : CmdErr) : (s.cmdError e).Inv := by
  cases herr : s.err with
  | true => rwa [State.cmdError_of_err herr]
  | false =>
    rw [State.cmdError_of_not_err herr]
    exact ⟨hs.seqRnd, errLegal_errCodeOf e⟩

theorem State.Inv.clearError {s : State} (hs : s.Inv) : s.clearError.Inv := ⟨hs.seqRnd, rfl⟩

theorem State.inv_applyReset (s : State) : s.applyReset.Inv := ⟨rfl, rfl⟩

/-- When no ENCRYPT is in progress, RND is 0 or what the last one has left there. -/
theorem State.Inv.rnd_of_not_busy {s : State} (hs : s.Inv) (hb : s.busy = false) : s.rnd = 0#4 ∨ s.rnd = 10#4 := by
  have h := hs.seqRnd
  cases hq : s.seq with
  | idle => rw [hq] at h; exact .inl (of_decide_eq_true h)
  | done => rw [hq] at h; exact of_decide_eq_true h
  | initial | round => simp [State.busy, Seq.busy, hq] at hb

/-- In ROUND the counter is a round index. -/
theorem State.Inv.rnd_of_round {s : State} (hs : s.Inv) (hq : s.seq = .round) : s.rnd.toNat ≤ 9 := by
  have h := hs.seqRnd
  rw [hq] at h
  exact of_decide_eq_true h

theorem State.Inv.performs {s t : State} {i : Instr} (hs : s.Inv) (hb : s.busy = false) (h : Performs s i t) : t.Inv := by
  obtain ⟨herr, hcode, -⟩ := h.frame
  refine ⟨?_, by rw [herr, hcode]; exact hs.errFlag⟩
  by_cases hi : i = .encrypt
  · subst hi
    cases h
    rfl
  · obtain ⟨u, rfl, hrnd, -, -⟩ := performs_primitive h hi
    rw [State.complete_seq, State.complete_rnd, hrnd]
    exact decide_eq_true (hs.rnd_of_not_busy hb)

theorem State.Inv.exec {s t : State} {i : Instr} (hs : s.Inv) (h : exec i s = .next t) : t.Inv := by
  rcases exec_cases h with ⟨-, rfl⟩ | ⟨-, -, rfl⟩ | ⟨hb, -, hp⟩
  · exact hs.cmdError _
  · exact hs.cmdError _
  · exact hs.performs hb hp

theorem State.Inv.hostStep {s t : State} (hs : s.Inv) (h : hostStep s = .next t) : t.Inv := by
  rcases hostStep_flags h with hsame | ⟨e, hsame⟩ | ⟨-, -, -, -, -, -, hsame⟩ | ⟨-, -, rest, -, i, -, -, -, hx⟩
  · exact hs.of_sameFlags hsame
  · exact (hs.cmdError e).of_sameFlags hsame
  · exact hs.clearError.of_sameFlags hsame
  · have hrest : State.Inv { s with host := rest, answer := .written } := ⟨hs.seqRnd, hs.errFlag⟩
    exact hrest.exec hx

/-- A round step counts, and ends at 10 after the last round. -/
theorem State.Inv.roundStep {s : State} {j : Fin 10} (hs : s.Inv) (hj : s.rnd.toNat = j.val) : (s.roundStep j).Inv := by
  refine ⟨?_, by rw [State.roundStep_err, State.roundStep_errCode]; exact hs.errFlag⟩
  rw [State.roundStep_seq, State.roundStep_rnd]
  by_cases hlast : j = 9
  · rw [if_pos hlast, (roundIndex_last_iff hj).1 hlast]
    rfl
  · rw [if_neg hlast]
    exact decide_eq_true (by bv_omega)

theorem State.Inv.coreStep {s t : State} (hs : s.Inv) (h : coreStep s = .next t) : t.Inv := by
  rcases coreStep_cases h with ⟨-, rfl⟩ | ⟨-, rfl⟩ | ⟨-, j, hj, rfl⟩
  · exact hs
  · exact ⟨rfl, by rw [State.initialStep_err, State.initialStep_errCode]; exact hs.errFlag⟩
  · exact hs.roundStep (roundIndex_eq_some.1 hj)

/-- Settles O53: the flags of `State.reset` are all 0. -/
theorem invariantHoldsAtReset : Obligations.InvariantHoldsAtReset := ⟨rfl, rfl⟩

theorem State.Inv.withTurns {s : State} (hs : s.Inv) (ts : List Turn) : State.Inv { s with turns := ts } :=
  ⟨hs.seqRnd, hs.errFlag⟩

theorem State.Inv.step {s t : State} (hs : s.Inv) (h : step s = .next t) : t.Inv := by
  obtain ⟨ts, ⟨-, hreset⟩ | ⟨-, hcore | hhost⟩⟩ := step_cases s
  · obtain rfl := Host.Outcome.next.inj (hreset.symm.trans h)
    exact State.inv_applyReset _
  · exact (hs.withTurns ts).coreStep (hcore.symm.trans h)
  · exact (hs.withTurns ts).hostStep (hhost.symm.trans h)

/-- Settles O54: the host's turn, the core's and the reset keep the invariant, each by what it does to the flags. -/
theorem invariantKeptByEveryStep : Obligations.InvariantKeptByEveryStep := fun _ _ hs h => hs.step h

/-! An error stays -/

theorem coreStep_err {s t : State} (h : coreStep s = .next t) : t.err = s.err ∧ t.errCode = s.errCode := by
  rcases coreStep_cases h with ⟨-, rfl⟩ | ⟨-, rfl⟩ | ⟨-, j, -, rfl⟩
  · exact ⟨rfl, rfl⟩
  · exact ⟨s.initialStep_err, s.initialStep_errCode⟩
  · exact ⟨s.roundStep_err j, s.roundStep_errCode j⟩

/-- A command keeps an error that stands: performed it raises none, and rejected it keeps the first code. -/
theorem exec_err {i : Instr} {s t : State} (herr : s.err = true) (h : exec i s = .next t) :
    t.err = s.err ∧ t.errCode = s.errCode := by
  rcases exec_cases h with ⟨-, rfl⟩ | ⟨-, -, rfl⟩ | ⟨-, -, hp⟩
  · rw [State.cmdError_of_err herr]; exact ⟨rfl, rfl⟩
  · rw [State.cmdError_of_err herr]; exact ⟨rfl, rfl⟩
  · obtain ⟨herr', hcode, -⟩ := hp.frame
    exact ⟨herr', hcode⟩

/-- A turn of the host keeps an error that stands, but for the acknowledgement. -/
theorem hostStep_err {s t : State} (herr : s.err = true) (h : hostStep s = .next t) :
    (t.err = s.err ∧ t.errCode = s.errCode) ∨
    ∃ op rest v, s.host = op :: rest ∧ op.IsWrite 0x04#6 v ∧ v.getLsbD 2 = true := by
  rcases hostStep_flags h with hsame | ⟨e, hsame⟩ | ⟨op, rest, v, hh, hop, hv, -⟩ | ⟨-, -, rest, -, i, -, -, -, hx⟩
  · exact .inl ⟨hsame.err, hsame.errCode⟩
  · rw [State.cmdError_of_err herr] at hsame
    exact .inl ⟨hsame.err, hsame.errCode⟩
  · exact .inr ⟨op, rest, v, hh, hop, hv⟩
  · obtain ⟨herr', hcode⟩ := exec_err (s := { s with host := rest, answer := .written }) herr hx
    exact .inl ⟨herr', hcode⟩

/-- Settles O13: who moves in the step, and what that turn does to ERR and ERRCODE. -/
theorem errorStaysUntilAcknowledged : Obligations.ErrorStaysUntilAcknowledged := by
  intro s t h herr
  rcases step_agent s with hreset | hcore | ⟨ts, -, -, hhost, htakes⟩
  · exact .inr (.inl hreset)
  · obtain ⟨herr', hcode⟩ := coreStep_err ((step_of_coreMoves hcore).symm.trans h)
    exact .inl ⟨herr'.trans herr, hcode⟩
  · rcases hostStep_err (s := { s with turns := ts }) herr (hhost.symm.trans h) with
      ⟨herr', hcode⟩ | ⟨op, rest, v, hh, hop, hv⟩
    · exact .inl ⟨herr'.trans herr, hcode⟩
    · exact .inr (.inr ⟨v, _, hv, hop.takesWrite (htakes op rest hh)⟩)

end Sys2Proof.Machine
end

section
/-! SUPPORT. A safe host never stops the machine (60_exceptions.md R230, R233): every step answers a next state, and takes at most
the first statement off the host's list. -/

namespace Sys2Proof.Machine

/-! The host's list -/

theorem readReg_host (r : Reg) (s : State) : (readReg r s).2.host = s.host := by
  rcases readReg_state r s with h | h <;> rw [h]
  exact s.drewOne_host

theorem exec_host {i : Instr} {s t : State} (h : exec i s = .next t) : t.host = s.host := by
  obtain ⟨-, -, -, -, -, -, -, hhost, -⟩ := commandsWriteOnlyTheirRegisters i s t h
  exact hhost

theorem writeReg_host {r : Reg} {v : Word} {s t : State} (h : writeReg r v s = .next t) : t.host = s.host := by
  cases r with
  | ctrl =>
    have h : ctrlWrite v s = .next t := h
    rcases ctrlWrite_cases v s with ⟨-, hc⟩ | ⟨-, e, -, hc⟩ | ⟨-, i, -, hc⟩
    · cases hc.symm.trans h
      rfl
    · cases hc.symm.trans h
      rfl
    · exact exec_host (hc.symm.trans h)
  | status =>
    cases h
    unfold statusWrite
    split <;> rfl
  | result => cases h; rfl
  | state k | key k =>
    cases h
    unfold dataWrite
    split
    · rfl
    · simp

theorem accessReg_host {r : Reg} {x : Xfer} {s t : State} (h : accessReg r x s = .next t) : t.host = s.host := by
  cases x with
  | read n => cases h; exact (State.answered_host _ _).trans (readReg_host r s)
  | write n v => exact (writeReg_host h).trans (State.answered_host s .written)

/-- A turn of the host takes at most the first statement off its list. -/
theorem hostStep_host {s t : State} (h : hostStep s = .next t) : t.host = s.host ∨ t.host = s.host.tail := by
  rcases hostStep_cases h with ⟨-, rfl⟩ | ⟨rest, hh, rfl⟩ | ⟨addr, x, rest, hh, -, rfl⟩ |
    ⟨r, x, rest, hr, ⟨off, hh, -⟩ | ⟨addr, off, hh, -⟩⟩
  · exact .inl rfl
  · unfold waitTurn
    split
    · exact .inl rfl
    · exact .inr (by rw [hh]; rfl)
  · exact .inr (by rw [hh]; rfl)
  · exact .inr ((accessReg_host hr).trans (by rw [hh]; rfl))
  · exact .inr ((accessReg_host hr).trans (by rw [hh]; rfl))

theorem coreStep_host {s t : State} (h : coreStep s = .next t) : t.host = s.host := by
  rcases coreStep_cases h with ⟨-, rfl⟩ | ⟨-, rfl⟩ | ⟨-, j, -, rfl⟩
  · rfl
  · exact s.initialStep_host
  · exact s.roundStep_host j

theorem step_host {s t : State} (h : step s = .next t) : t.host = s.host ∨ t.host = s.host.tail := by
  obtain ⟨ts, ⟨-, hreset⟩ | ⟨-, hcore | hhost⟩⟩ := step_cases s
  · obtain rfl := Host.Outcome.next.inj (hreset.symm.trans h)
    exact .inl (State.applyReset_host _)
  · exact .inl (coreStep_host (s := { s with turns := ts }) (hcore.symm.trans h))
  · exact hostStep_host (s := { s with turns := ts }) (hhost.symm.trans h)

theorem State.hostSafe_step {s t : State} (hsafe : s.hostSafe = true) (h : step s = .next t) : t.hostSafe = true := by
  rw [State.hostSafe, List.all_eq_true] at hsafe ⊢
  rcases step_host h with hh | hh <;> rw [hh]
  · exact hsafe
  · exact fun op hop => hsafe op (List.mem_of_mem_tail hop)

/-! Every step answers a next state -/

/-- In a good state the core has a step: RND is in range. -/
theorem State.Inv.coreStep_total {s : State} (hs : s.Inv) : ∃ t, Machine.coreStep s = .next t := by
  cases hb : s.busy with
  | false => exact ⟨s, coreStep_of_not_busy hb⟩
  | true =>
    cases hq : s.seq with
    | idle | done => simp [State.busy, Seq.busy, hq] at hb
    | initial => exact ⟨_, coreStep_initial hq⟩
    | round =>
      have hle := hs.rnd_of_round hq
      exact ⟨_, coreStep_round (r := ⟨s.rnd.toNat, by omega⟩) hq rfl⟩

theorem accessWindow_total {off : BitVec 6} {x : Xfer} (h : (legalReg off x).isSome = true) (s : State) :
    ∃ t, accessWindow off x s = .next t := by
  rcases accessWindow_cases off x s with ⟨hnone, -⟩ | ⟨r, t, -, haccess, ht⟩
  · rw [hnone] at h
    cases h
  · exact ⟨t, haccess.trans ht⟩

theorem hostStep_total {s : State} (hsafe : s.hostSafe = true) : ∃ t, hostStep s = .next t := by
  cases hh : s.host with
  | nil => exact ⟨s, by simp only [hostStep, hh]⟩
  | cons op rest =>
    have hop : op.safe = true := by
      rw [State.hostSafe, List.all_eq_true] at hsafe
      exact hsafe op (by simp [hh])
    cases op with
    | access off x =>
      simp only [hostStep, hh]
      exact accessWindow_total hop _
    | bus addr x =>
      simp only [hostStep, hh, accessBus]
      cases hw : windowOffset addr with
      | none => exact ⟨_, rfl⟩
      | some off =>
        simp only [HostOp.safe, hw] at hop
        exact accessWindow_total hop _
    | wait => exact ⟨_, by simp only [hostStep, hh]; rfl⟩

theorem State.Inv.step_total {s : State} (hs : s.Inv) (hsafe : s.hostSafe = true) : ∃ t, Machine.step s = .next t := by
  obtain ⟨ts, ⟨-, hreset⟩ | ⟨-, hcore | hhost⟩⟩ := step_cases s
  · exact ⟨_, hreset⟩
  · rw [hcore]
    exact (hs.withTurns ts).coreStep_total
  · rw [hhost]
    exact hostStep_total hsafe

/-- Settles O55: the next state is there, and the invariant and the safety of the host's list go on to hold in it. -/
theorem safeHostNeverStops : Obligations.SafeHostNeverStops := by
  intro s hs hsafe
  obtain ⟨t, ht⟩ := hs.step_total hsafe
  exact ⟨t, ht, hs.step ht, State.hostSafe_step hsafe ht⟩

end Sys2Proof.Machine
end

section
/-! SUPPORT. The sequencer's moves (45_round_sequencer.md R198, R200), how many core steps an ENCRYPT still has, and the end of a
WAIT loop (30_encoding.md R91, 70_reset_and_hazards.md R268). -/

namespace Sys2Proof.Machine

/-- Settles O23: ENCRYPT performs `State.startEncrypt`. -/
theorem encryptIsAccepted : Obligations.EncryptIsAccepted :=
  ⟨fun _ hb => exec_of_performs hb .encrypt, rejectedWhileBusy _, rfl,
    onlyOpcodeBits_of_usedMask (by decide) (by decide)⟩

/-- Settles O29: the whitening and ten rounds, after each of which but the last SEQ is ROUND. -/
theorem encryptEndsAfterElevenSteps : Obligations.EncryptEndsAfterElevenSteps := by
  refine fun s hb => ⟨s.startEncrypt, exec_of_performs hb .encrypt, fun n hn => ?_, coreSteps_startEncrypt s le_rfl⟩
  cases n with
  | zero => exact ⟨_, rfl, rfl⟩
  | succ n =>
    have hseq : (s.encryptAfter n).seq = .round := if_neg (by omega)
    exact ⟨_, coreSteps_startEncrypt s (by omega), by rw [State.busy, hseq]; rfl⟩

/-! The state table -/

/-- An accepted ENCRYPT goes to INITIAL with RND 0, every other accepted command to DONE with RND kept. -/
theorem exec_seq {i : Instr} {s t : State} (hb : s.busy = false) (hwf : i.wf = true) (h : exec i s = .next t) :
    (i = .encrypt ∧ t.seq = .initial ∧ t.rnd = 0#4) ∨ (i ≠ .encrypt ∧ t.seq = .done ∧ t.rnd = s.rnd) := by
  obtain ⟨u, hu⟩ := performs_of_wf s hwf
  cases (exec_of_performs hb hu).symm.trans h
  by_cases hi : i = .encrypt
  · subst hi
    cases hu
    exact .inl ⟨rfl, rfl, rfl⟩
  · obtain ⟨u, rfl, hrnd, -, -⟩ := performs_primitive hu hi
    exact .inr ⟨hi, rfl, hrnd⟩

/-- A command that the host takes is well-formed, and finds the flags as they were before the step. -/
theorem takesCommand_wf {s u : State} {i : Instr} (h : s.takesCommand i u) :
    i.wf = true ∧ u.busy = s.busy ∧ u.rnd = s.rnd := by
  obtain ⟨v, hv, hd⟩ := h
  obtain ⟨ts, rest, rfl⟩ := takesWrite_eq hv
  exact ⟨(decodeWord_eq_legal_iff.1 hd).1, rfl, rfl⟩

/-- The rows of the state table whose event is a core step. -/
theorem coreStep_seq {s t : State} (h : coreStep s = .next t) :
    (s.busy = false ∧ t.seq = s.seq ∧ t.rnd = s.rnd) ∨ (s.seq = .initial ∧ t.seq = .round ∧ t.rnd = 0#4) ∨
    (s.seq = .round ∧ s.rnd.toNat ≤ 8 ∧ t.seq = .round ∧ t.rnd = s.rnd + 1#4) ∨
    (s.seq = .round ∧ s.rnd = 9#4 ∧ t.seq = .done ∧ t.rnd = 10#4) := by
  rcases coreStep_cases h with ⟨hb, rfl⟩ | ⟨hq, rfl⟩ | ⟨hq, j, hj, rfl⟩
  · exact .inl ⟨hb, rfl, rfl⟩
  · exact .inr (.inl ⟨hq, rfl, rfl⟩)
  · have hj := roundIndex_eq_some.1 hj
    rw [State.roundStep_seq, State.roundStep_rnd]
    by_cases hlast : j = 9
    · have hrnd : s.rnd = 9#4 := (roundIndex_last_iff hj).1 hlast
      exact .inr (.inr (.inr ⟨hq, hrnd, if_pos hlast, by rw [hrnd]; rfl⟩))
    · exact .inr (.inr (.inl ⟨hq, by omega, if_neg hlast, rfl⟩))

/-- A turn of the host moves SEQ or RND only by a command that it writes to CTRL while BUSY = 0. -/
theorem hostStep_seq {s t : State} (h : hostStep s = .next t) :
    (t.seq = s.seq ∧ t.rnd = s.rnd) ∨
    (s.busy = false ∧ ∃ op rest v i, s.host = op :: rest ∧ op.IsWrite 0x00#6 v ∧ decodeWord v = .legal i) := by
  rcases hostStep_flags h with hsame | ⟨e, hsame⟩ | ⟨-, -, -, -, -, -, hsame⟩ | ⟨hb, op, rest, v, i, hh, hop, hd, -⟩
  · exact .inl ⟨hsame.seq, hsame.rnd⟩
  · exact .inl ⟨hsame.seq, hsame.rnd⟩
  · exact .inl ⟨hsame.seq, hsame.rnd⟩
  · exact .inr ⟨hb, op, rest, v, i, hh, hop, hd⟩

/-- Settles O32: a reset, an accepted command, a turn of the core by the rows of its table, or a turn of the host without a
command. -/
theorem sequencerMovesOnlyAsTabled : Obligations.SequencerMovesOnlyAsTabled := by
  intro s t h
  by_cases haccept : s.busy = false ∧ ∃ i u, s.takesCommand i u
  · obtain ⟨hb, i, u, hu⟩ := haccept
    obtain ⟨hwf, hbu, hrnd⟩ := takesCommand_wf hu
    have hx : exec i { u with answer := .written } = .next t := (step_of_takesCommand hb hu).symm.trans h
    rcases exec_seq (s := { u with answer := .written }) (hbu.trans hb) hwf hx with ⟨rfl, hseq, hrnd'⟩ | ⟨hi, hseq, hrnd'⟩
    · exact .inr (.inl ⟨hb, ⟨u, hu, hx⟩, hseq, hrnd'⟩)
    · exact .inr (.inr (.inl ⟨hb, ⟨i, u, hi, hu, hx⟩, hseq, hrnd'.trans hrnd⟩))
  have hnone : s.busy = false → ∀ i u, ¬ s.takesCommand i u := fun hb i u hu => haccept ⟨hb, i, u, hu⟩
  rcases step_agent s with hreset | hcore | ⟨ts, hturn, hcore, hhost, htakes⟩
  · obtain ⟨ts, ht⟩ := List.head?_eq_some_iff.1 hreset
    obtain rfl := Host.Outcome.next.inj ((step_reset_turn ht).symm.trans h)
    exact .inl ⟨hreset, rfl, rfl⟩
  · have hturn : s.turns.head? ≠ some .reset := by
      rcases hcore with hhead | ⟨hnil, -⟩
      · rw [hhead]; decide
      · rw [hnil]; decide
    have hc := (step_of_coreMoves hcore).symm.trans h
    rcases coreStep_seq hc with ⟨hb, hseq, hrnd⟩ | hmove
    · exact .inr (.inr (.inr (.inr ⟨hturn, fun _ => hb, hnone, hseq, hrnd⟩)))
    · exact .inr (.inr (.inr (.inl ⟨hcore, hc, hmove⟩)))
  · rcases hostStep_seq (s := { s with turns := ts }) (hhost.symm.trans h) with
      ⟨hseq, hrnd⟩ | ⟨hb, op, rest, v, i, hh, hop, hd⟩
    · exact .inr (.inr (.inr (.inr ⟨hturn, fun hmoves => absurd hmoves hcore, hnone, hseq, hrnd⟩)))
    · exact absurd ⟨v, hop.takesWrite (htakes op rest hh), hd⟩ (hnone hb i _)

/-! The core steps that an ENCRYPT still has -/

/-- The core steps from these values of SEQ and RND to the end of the ENCRYPT, 0 when none is in progress. -/
def coreLeft (q : Seq) (rnd : BitVec 4) : Nat :=
  match q with
  | .idle => 0
  | .initial => 11
  | .round => 10 - rnd.toNat
  | .done => 0

theorem coreLeft_le (q : Seq) (rnd : BitVec 4) : coreLeft q rnd ≤ 11 := by
  cases q <;> simp only [coreLeft] <;> omega

theorem coreLeft_of_not_busy {q : Seq} (h : q.busy = false) (rnd : BitVec 4) : coreLeft q rnd = 0 := by
  cases q with
  | idle | done => rfl
  | initial | round => cases h

/-- A core step of a busy machine is one of them, and changes nothing of the host's. -/
theorem State.Inv.coreStep_busy {s : State} (hs : s.Inv) (hb : s.busy = true) :
    ∃ t, Machine.coreStep s = .next t ∧ coreLeft s.seq s.rnd = coreLeft t.seq t.rnd + 1 ∧ t.host = s.host ∧
      t.turns = s.turns := by
  obtain ⟨t, ht⟩ := hs.coreStep_total
  refine ⟨t, ht, ?_, coreStep_host ht, ?_⟩
  · rcases coreStep_seq ht with ⟨hnb, -⟩ | ⟨hq, hseq, hrnd⟩ | ⟨hq, hle, hseq, hrnd⟩ | ⟨hq, h9, hseq, hrnd⟩
    · rw [hb] at hnb; cases hnb
    · rw [hq, hseq, hrnd]; rfl
    · rw [hq, hseq, hrnd]
      show 10 - s.rnd.toNat = 10 - (s.rnd + 1#4).toNat + 1
      bv_omega
    · rw [hq, h9, hseq, hrnd]; rfl
  · rcases coreStep_cases ht with ⟨-, rfl⟩ | ⟨-, rfl⟩ | ⟨-, j, -, rfl⟩
    · rfl
    · exact s.initialStep_turns
    · exact s.roundStep_turns j

/-- Settles O28: whose turn it is, and the number of core steps left, which a busy core's step lowers. -/
theorem coreWaitsUnlessBusy : Obligations.CoreWaitsUnlessBusy := by
  refine ⟨fun s ts ht => step_core_turn ht, fun s ht hb => step_no_turn_busy ht hb, fun s hb hs => ?_,
    fun s ts ht hb => ⟨coreStep_of_not_busy hb, (step_core_turn ht).trans (coreStep_of_not_busy hb)⟩⟩
  obtain ⟨t, ht, hleft, -, -⟩ := hs.coreStep_busy hb
  refine ⟨t, ht, ?_⟩
  by_contra hsame
  obtain ⟨hseq, hrnd⟩ : t.seq = s.seq ∧ t.rnd = s.rnd := by simpa only [not_or, not_not] using hsame
  rw [hseq, hrnd] at hleft
  omega

/-! The WAIT loop -/

/-- Bit 0 of STATUS is BUSY (20_memory.md R59). -/
theorem statusWord_bit_zero (s : State) : s.statusWord.getLsbD 0 = s.busy := by
  obtain ⟨hbusy, -⟩ := statusBits_fields s
  rw [← statusWord_extract_low s (by omega)] at hbusy
  simpa using congrArg (BitVec.getLsbD · 0) hbusy

theorem run_succ {n : Nat} {s t : State} (h : step s = .next t) :
    Host.Core.run Sys2Proof.core (n + 1) s = Host.Core.run Sys2Proof.core n t := by
  have hcore : Sys2Proof.core.step s = .next t := h
  simp only [Host.Core.run, hcore]

/-- The read of STATUS that ends the loop. -/
theorem step_wait_of_not_busy {s : State} {rest : List HostOp} (ht : s.turns = []) (hh : s.host = .wait :: rest)
    (hb : s.busy = false) : step s = .next (({ s with host := rest } : State).answered (.data s.statusWord)) := by
  rw [step_no_turn_not_busy ht hb]
  simp only [hostStep, hh, waitTurn, statusWord_bit_zero, hb, Bool.false_eq_true, if_false]

/-- The loop takes the core steps that are left, and then one read of STATUS. -/
theorem run_wait {s : State} {rest : List HostOp} (hs : s.Inv) (ht : s.turns = []) (hh : s.host = .wait :: rest) :
    ∃ t, Host.Core.run Sys2Proof.core (coreLeft s.seq s.rnd + 1) s = .next t ∧ t.host = rest ∧ t.busy = false ∧
      t.answer = .data t.statusWord := by
  induction hn : coreLeft s.seq s.rnd generalizing s with
  | zero =>
    have hb : s.busy = false := by
      by_contra hb
      obtain ⟨t, -, hleft, -, -⟩ := hs.coreStep_busy (by simpa using hb)
      omega
    exact ⟨_, run_succ (step_wait_of_not_busy ht hh hb), rfl, hb, rfl⟩
  | succ n ih =>
    have hb : s.busy = true := by
      by_contra hb
      have hleft : coreLeft s.seq s.rnd = 0 := coreLeft_of_not_busy (Bool.eq_false_iff.2 hb) s.rnd
      omega
    obtain ⟨t, hcore, hleft, hhost, hturns⟩ := hs.coreStep_busy hb
    rw [run_succ ((step_no_turn_busy ht hb).trans hcore)]
    exact ih (hs.coreStep hcore) (hturns.trans ht) (hhost.trans hh) (by omega)

/-- Settles O44: at most eleven core steps are left, and the read of STATUS after them ends the loop. -/
theorem waitLoopEnds : Obligations.WaitLoopEnds := by
  intro s rest hs ht hh
  obtain ⟨t, hrun⟩ := run_wait hs ht hh
  exact ⟨coreLeft s.seq s.rnd + 1, t, Nat.succ_le_succ (coreLeft_le _ _), hrun⟩

end Sys2Proof.Machine
end

section
/-! SUPPORT. The reset (70_reset_and_hazards.md R260, R261, R270): the control state it leaves, and the draws. -/

namespace Sys2Proof.Machine

theorem drawBlock_apply (d : Nat) (i : Fin 16) : (drawBlock d)[i] = Config.any8 (d + i.val) := blockOf_apply _ i

/-- Settles O1: the fields of `State.reset`; the core waits because it is not busy. -/
theorem resetStateHasClearControl : Obligations.ResetStateHasClearControl :=
  ⟨rfl, rfl, rfl, rfl, rfl, rfl, rfl, coreStep_of_not_busy rfl⟩

/-- Settles O2: a reset turn is `State.applyReset`, field by field. -/
theorem resetTurnClearsControlAndAborts : Obligations.ResetTurnClearsControlAndAborts := fun s ts ht =>
  ⟨({ s with turns := ts } : State).applyReset, step_reset_turn ht, rfl, rfl, rfl, rfl, rfl, coreStep_of_not_busy rfl,
    drawBlock_apply s.draws, drawBlock_apply (s.draws + 16), rfl, State.applyReset_host _, State.applyReset_turns _,
    State.applyReset_answer _⟩

end Sys2Proof.Machine
end

section
/-! SUPPORT. The window as a whole (20_memory.md R50 to R56): which accesses it takes, where it lies, a legal command word at
CTRL, and the data registers read after a write and while BUSY. -/

namespace Sys2Proof.Machine

/-! A legal command word -/

theorem hostTakes_withFetchWord (s : State) (nbits w : Nat) :
    (s.withFetchWord nbits w).hostTakes = some (hostWr 0x00#6 (tableWord nbits w), s) := rfl

theorem decodeWord_of_decodeTableWord {nbits w : Nat} {i : Instr} (h : decodeTableWord nbits w = some i) :
    decodeWord (tableWord nbits w) = .legal i := by
  unfold decodeTableWord at h
  split at h
  case h_1 hd => rw [hd, Option.some.inj h]
  case h_2 => cases h

/-- Settles O10: both ways the host takes a command, and `step_of_takesCommand` says what the step is then. -/
theorem stepRunsDecodedCommand : Obligations.StepRunsDecodedCommand :=
  ⟨fun _ _ v _ ht hb hd => step_of_takesCommand hb ⟨v, .inl ht, hd⟩,
    fun s nbits w _ hb h => step_of_takesCommand (s := s.withFetchWord nbits w) hb
      ⟨tableWord nbits w, .inl (hostTakes_withFetchWord s nbits w), decodeWord_of_decodeTableWord h⟩⟩

/-! Which accesses are legal, and where -/

theorem regAt_isSome_iff {off : BitVec 6} : (regAt off).isSome = true ↔
    off ∈ [0x00#6, 0x04#6, 0x08#6, 0x10#6, 0x14#6, 0x18#6, 0x1C#6, 0x20#6, 0x24#6, 0x28#6, 0x2C#6] := by
  revert off; decide

/-- The legal accesses are those of 4 bytes at the mapped offsets (20_memory.md R51, R52). -/
theorem legalReg_isSome_iff {off : BitVec 6} {x : Xfer} : (legalReg off x).isSome = true ↔ x.width = 4 ∧
    off ∈ [0x00#6, 0x04#6, 0x08#6, 0x10#6, 0x14#6, 0x18#6, 0x1C#6, 0x20#6, 0x24#6, 0x28#6, 0x2C#6] := by
  rw [← regAt_isSome_iff]
  constructor
  · intro h
    obtain ⟨r, hr⟩ := Option.isSome_iff_exists.1 h
    obtain ⟨hx, hreg⟩ := legalReg_eq_some hr
    exact ⟨hx, Option.isSome_of_eq_some hreg⟩
  · rintro ⟨hx, h⟩
    obtain ⟨r, hr⟩ := Option.isSome_iff_exists.1 h
    exact Option.isSome_of_eq_some (legalReg_of_regAt hx hr)

/-- Settles O42: `legalReg` says which accesses are legal, and `accessWindow_cases` what becomes of them. -/
theorem illegalAccessIsBusError : Obligations.IllegalAccessIsBusError := by
  intro s t off x h
  rw [step_of_hostTakes_access h]
  split
  case isTrue hx => exact accessWindow_total (legalReg_isSome_iff.2 hx) t
  case isFalse hx =>
    rcases accessWindow_cases off x t with ⟨-, hfault⟩ | ⟨r, -, hr, -⟩
    · exact ⟨_, hfault⟩
    · exact absurd (legalReg_isSome_iff.1 (Option.isSome_of_eq_some hr)) hx

theorem windowOffset_base_add (off : BitVec 6) : windowOffset (Config.baseAddr + off.toNat) = some off := by
  have hlt : off.toNat < 0x40 := off.isLt
  rw [windowOffset, if_pos (by omega), Nat.add_sub_cancel_left, BitVec.ofNat_toNat, BitVec.setWidth_eq]

theorem windowOffset_outside {addr : Nat} (h : addr < Config.baseAddr ∨ Config.baseAddr + 0x40 ≤ addr) :
    windowOffset addr = none := if_neg (by omega)

/-- Settles O43: `windowOffset` inside the window and outside it. -/
theorem windowLiesAtBaseAddress : Obligations.WindowLiesAtBaseAddress := by
  refine ⟨Nat.mul_mod_right _ _, fun s t addr x h => ⟨fun off haddr => ?_, fun hout => ?_⟩⟩
  · rw [step_of_hostTakes_bus h, haddr, accessBus, windowOffset_base_add]
  · rw [step_of_hostTakes_bus h, accessBus, windowOffset_outside hout]
    rfl

/-! The data registers -/

theorem readColumn_of_busy {s : State} (hb : s.busy = true) (X : Block) (k : Fin 4) :
    readColumn X k s = (Config.any32 s.draws, s.drewOne) := by
  simp [readColumn, hb]

theorem hostTakes_draws {s t : State} {op : HostOp} (h : s.hostTakes = some (op, t)) : t.draws = s.draws := by
  obtain ⟨ts, rest, -, rfl, -⟩ := hostTakes_cases h
  rfl

/-- Settles O35: while BUSY = 1 the read of a data register is a draw, whatever the register holds. -/
theorem dataReadWhileBusyIsDraw : Obligations.DataReadWhileBusyIsDraw := by
  rintro s t k hb (h | h)
  · rw [step_of_hostTakes_read h (regAt_state k), readReg, readColumn_of_busy ((hostTakes_busy h).trans hb),
      ← hostTakes_draws h]
    rfl
  · rw [step_of_hostTakes_read h (regAt_key k), readReg, readColumn_of_busy ((hostTakes_busy h).trans hb),
      ← hostTakes_draws h]
    rfl

theorem readReg_state_of_not_busy {s : State} (hb : s.busy = false) (c : Fin 4) :
    (readReg (.state c) s).1 = pack s.state c := by
  rw [readReg, readColumn_of_not_busy hb]

theorem readReg_key_of_not_busy {s : State} (hb : s.busy = false) (c : Fin 4) :
    (readReg (.key c) s).1 = pack s.key c := by
  rw [readReg, readColumn_of_not_busy hb]

theorem writeReg_state_of_not_busy {s : State} (hb : s.busy = false) (k : Fin 4) (v : Word) :
    writeReg (.state k) v s = .next (s.writeState k v) := by
  simp only [writeReg, dataWrite_of_not_busy hb]

theorem writeReg_key_of_not_busy {s : State} (hb : s.busy = false) (k : Fin 4) (v : Word) :
    writeReg (.key k) v s = .next (s.writeKey k v) := by
  simp only [writeReg, dataWrite_of_not_busy hb]

/-- The column written reads back, and the other columns stay (20_memory.md R53). -/
theorem pack_unpack (X : Block) (k c : Fin 4) (v : Word) : pack (unpack X k v) c = if c = k then v else pack X c := by
  refine word_ext fun r => ?_
  rw [byteOf_pack, unpack_apply, colOf_idx, rowOf_idx, apply_ite (byteOf · r), byteOf_pack]

/-- Settles O38: a write while BUSY = 0 unpacks the word into its column, and a read packs the column again. -/
theorem columnReadsBackAsWritten : Obligations.ColumnReadsBackAsWritten := by
  intro s k c v hb
  refine ⟨_, _, writeReg_state_of_not_busy hb k v, writeReg_key_of_not_busy hb k v, ?_⟩
  simp only [readReg_state_of_not_busy, readReg_key_of_not_busy, hb, State.writeState_busy, State.writeKey_busy,
    State.writeState_state, State.writeState_key, State.writeKey_state, State.writeKey_key, pack_unpack, and_self]

end Sys2Proof.Machine
end

section
/-! SUPPORT. The S-box against its construction (41_substitution.md R100), the locality of the column mix (43_gf_column_mix.md
R148 to R151), and the known answer of 95_test_vectors.md L1-1. -/

namespace Sys2Proof.Machine

/-! The S-box -/

/-- The byte that the affine map of 41_substitution.md R100 takes to `z`. -/
def affineInv (z : Byte) : Byte := z.rotateLeft 1 ^^^ z.rotateLeft 3 ^^^ z.rotateLeft 6 ^^^ 0x05#8

theorem affine_affineInv : Function.RightInverse affineInv affine := by
  unfold Function.RightInverse Function.LeftInverse
  decide +kernel

/-- Taken back through the affine map, the S-box is the inverse in the field. -/
theorem fieldMul_affineInv_sboxRom : ∀ x : Byte, x ≠ 0x00#8 → fieldMul x (affineInv (sboxRom x)) = 0x01#8 := by
  decide +kernel

/-- Settles O46: the inverse of `x` is the byte that the affine map takes to the S-box entry of `x`. -/
theorem sboxIsAffineOfInverse : Obligations.SboxIsAffineOfInverse :=
  ⟨by decide, fun x hx => ⟨affineInv (sboxRom x), fieldMul_affineInv_sboxRom x hx, (affine_affineInv _).symm⟩⟩

/-! The column mix -/

/-- The coefficients of each row of the matrix add up to 1 (43_gf_column_mix.md R146). -/
theorem mixMat_row_sum : ∀ r : Fin 4, mixMat r 0 ^^^ mixMat r 1 ^^^ mixMat r 2 ^^^ mixMat r 3 = 1#2 := by decide

/-- A column of four equal bytes is a fixed point (43_gf_column_mix.md R150). -/
theorem mixByte_self (r : Fin 4) (x : Byte) : mixByte r x x x x = x := by
  rw [mixByte, ← gfMul_xor, ← gfMul_xor, ← gfMul_xor, mixMat_row_sum, gfMul_one]

/-- Settles O51: a mixed byte is `mixByte` of the four old bytes of its column. -/
theorem columnMixIsColumnLocal : Obligations.ColumnMixIsColumnLocal := by
  refine ⟨fun a b c h r => ?_, fun a c x h r => ?_⟩
  · simp only [mixColumns_idx, h]
  · simp only [mixColumns_idx, h, mixByte_self]

/-! The known answer -/

/-- The plaintext of L1-1. -/
def knownPlaintext : Block :=
  #v[0x00, 0x11, 0x22, 0x33, 0x44, 0x55, 0x66, 0x77, 0x88, 0x99, 0xaa, 0xbb, 0xcc, 0xdd, 0xee, 0xff]

/-- The key of L1-1. -/
def knownKey : Block :=
  #v[0x00, 0x01, 0x02, 0x03, 0x04, 0x05, 0x06, 0x07, 0x08, 0x09, 0x0a, 0x0b, 0x0c, 0x0d, 0x0e, 0x0f]

theorem roundKey_knownKey_last : roundKey knownKey 10 =
    #v[0x13, 0x11, 0x1d, 0x7f, 0xe3, 0x94, 0x4a, 0x17, 0xf3, 0x07, 0xa7, 0x8b, 0x4d, 0x2b, 0x30, 0xc5] := by
  decide +kernel

theorem aes128_known : aes128 knownPlaintext knownKey =
    #v[0x69, 0xc4, 0xe0, 0xd8, 0x6a, 0x7b, 0x04, 0x30, 0xd8, 0xcd, 0xb7, 0x80, 0x70, 0xb4, 0xc5, 0x5a] := by
  decide +kernel

/-- Settles O52: the general account of an ENCRYPT's core steps, with AES-128 evaluated on the vector. -/
theorem knownAnswerIsReached : Obligations.KnownAnswerIsReached :=
  ⟨_, _, exec_of_performs rfl .encrypt, coreSteps_startEncrypt _ le_rfl, aes128_known, roundKey_knownKey_last, rfl⟩

end Sys2Proof.Machine
end
